-- ==== Sys2Proof/Word.lean ====
section
/-! DEFINITION. Word.lean: the widths the SV4210 works in (spec/00_scope.md, CONVENTIONS). -/

namespace Sys2Proof

/-- A memory word: 16 bits, upper lane 15:8 and lower lane 7:0. -/
abbrev Word := BitVec 16

/-- One byte lane of a word, and one byte on the management port. -/
abbrev Byte := BitVec 8

/-- A word address: 20 bits, HA[19:0] and MA[19:0]. -/
abbrev Addr := BitVec 20

/-- A 32-bit quantity: a sequence number (0 stands for the number after FFFFFFFFh, R20), a generation (R117), a
millisecond time stamp (R146), a counter (R178). -/
abbrev DWord := BitVec 32

end Sys2Proof
end

