-- ==== Sys2Proof/Syntax.lean ====
section
/-! DEFINITION. Syntax.lean: the commands of the block, one constructor of `Instr` per row of spec/opcode_table.json, and
the operand types they carry. A command is an event the part takes (R21, R135, R136, R144 and the rule of its row). -/

namespace Sys2Proof

/-- A lane set (spec/00_scope.md, Byte lanes; R1). The set with neither lane is R1's "none". -/
structure Lanes where
  upper : Bool
  lower : Bool
  deriving DecidableEq, Repr

/-- The claimants of the memory port (R135, R137, R139). -/
inductive Claimant where
  | host | anchor | log | apply | startup
  deriving DecidableEq, Repr

/-- The levels of the straps MSZ[1:0] and ADR[1:0] at a reset, which samples them (R134, R161). -/
structure Straps where
  msz : BitVec 2
  adr : BitVec 2
  deriving DecidableEq, Repr

/-- The levels the input pins have when the supply comes up: the straps, TXN, RST# and PFW# (true is the high level). -/
structure PowerPins where
  straps  : Straps
  txnHigh : Bool
  rstHigh : Bool
  pfwHigh : Bool
  deriving DecidableEq, Repr

/-- Where the bytes of a management command stand in their I2C transfer (R161): whether a START and an address byte come first, with
the 7-bit target address, or the bytes go on with the transfer in progress; and whether a STOP follows the last byte, or the transfer
is left open. A whole transfer is `⟨some target, true⟩`. -/
structure Framing where
  start : Option (BitVec 7)
  stop  : Bool
  deriving DecidableEq, Repr

/-- The commands, in the order of spec/opcode_table.json. -/
inductive Instr where
  /-- HOST_WRITE (R7): the host presents a write cycle (HCE# and HWE# asserted) with the address on HA, the data on HD and
  the lanes of HUB# and HLB#; `oe` says whether HOE# is asserted as well (R1). -/
  | hostWrite (addr : Addr) (data : Word) (lanes : Lanes) (oe : Bool)
  /-- HOST_READ (R17): the host presents a read cycle (HCE# and HOE# asserted, HWE# not). -/
  | hostRead (addr : Addr) (lanes : Lanes)
  /-- REFUSAL_PULSE_END (R15): the 100 µs of the refusal pulse elapse. -/
  | refusalPulseEnd
  /-- HOLD_EXPIRED (R76, R28): the hold timer reaches the hold limit. -/
  | holdExpired
  /-- TXN_RISE (R22). -/
  | txnRise
  /-- RELEASE (R31): TXN falls. -/
  | release
  /-- ABT_RISE (R25). -/
  | abtRise
  /-- OPEN_TIMER_EXPIRY (R30): the open timer reaches the open limit. -/
  | openTimerExpiry
  /-- MEMORY_CLAIM (R135): the named claimant makes its next claim. -/
  | memoryClaim (who : Claimant)
  /-- GRANT (R136). -/
  | grant
  /-- HOST_ACCESS_COMPLETION (R9, R68): the memory port completes the host port's access. -/
  | hostAccessCompletion
  /-- LOG_WRITER_TAKE (R91). -/
  | logWriterTake
  /-- IMAGE_WORD_COMPLETION (R92, R94). -/
  | imageWordCompletion
  /-- APPLY_TAKE (R101). -/
  | applyTake
  /-- APPLY_CHOICE (R102). -/
  | applyChoice
  /-- HOME_WRITE_COMPLETION (R104). -/
  | homeWriteCompletion
  /-- PENDING_WRITE_START (R120). -/
  | pendingWriteStart
  /-- ANCHOR_WORD_COMPLETION (R122, R123). -/
  | anchorWordCompletion
  /-- FORMAT_CLEAR_COMPLETION (R128). -/
  | formatClearCompletion
  /-- FORMAT_SECOND_WRITE_START (R128). -/
  | formatSecondWriteStart
  /-- POWER_ON (R144): VCC rises into its range, with the pins at the levels given. -/
  | powerOn (pins : PowerPins)
  /-- RESET_PIN (R144): RST# falls, with the straps at the levels given. -/
  | resetPin (straps : Straps)
  /-- RST_RISE (R147): RST# rises. -/
  | rstRise
  /-- POWER_RESUME (R144): PFW# rises, with the straps at the levels given. -/
  | powerResume (straps : Straps)
  /-- PFW_FALL (R157). -/
  | pfwFall
  /-- ANCHOR_READ_COMPLETION (R147). -/
  | anchorReadCompletion
  /-- SCAN_READ_COMPLETION (R150). -/
  | scanReadCompletion
  /-- REPLAY_WRITE_COMPLETION (R151). -/
  | replayWriteCompletion
  /-- REGISTER_WRITE (R162): bytes of a write transfer. After a START they are the item number and then the item's bytes from
  offset 0 upward. -/
  | registerWrite (frame : Framing) (bytes : List Byte)
  /-- CONFIG_WRITE (R167): bytes of a write transfer to CONFIG. After a START they are the item's bytes from offset 0 upward. -/
  | configWrite (frame : Framing) (bytes : List Byte)
  /-- FAULT_READ (R163, R176): a read transfer, or more of one, in which the master takes `count` bytes: of the item the item pointer
  selects, which is FAULT where that is 08h. -/
  | faultRead (frame : Framing) (count : Nat)
  /-- ABORT (R26): the take of the ABORT command written to COMMAND (R171). -/
  | abort
  /-- APPLY_GUARDS (R125): the take of the command. -/
  | applyGuards
  /-- RELOAD_GUARD_EDIT (R168): the take of the command. -/
  | reloadGuardEdit
  /-- FORMAT (R126): the take of the command, with the parameters A and B of COMMAND. -/
  | format
  /-- CLEAR_FAULTS (R175): the take of the command. -/
  | clearFaults
  /-- CLEAR_COUNTERS (R178): the take of the command. -/
  | clearCounters
  /-- SOFT_RESET (R173): the take of the command, with the straps at the levels given. -/
  | softReset (straps : Straps)
  /-- UNKNOWN_COMMAND (R171): the take of a command whose code is outside 01h to 07h. -/
  | unknownCommand
  /-- REPLAY_READ_COMPLETION (R151). -/
  | replayReadCompletion
  /-- HOST_CYCLE_END (R3): the host ends its bus cycle. -/
  | hostCycleEnd
  deriving DecidableEq, Repr

end Sys2Proof
end

