-- ==== Sys2Proof/Config.lean ====
section
/-! DEFINITION. Config.lean: the limits the data sheet fixes, and the one free value it leaves open. -/

namespace Sys2Proof.Config

/-- FREE VALUE. R141: a write in flight at a reset leaves each lane of its lane set at its former value, the new value or an
undefined value. The byte is this constant applied to a counter of the state; nothing can be proved of it. -/
opaque tornByte : Nat → BitVec 8

/-- Words of the two anchor copies together: the anchor area is words 0 to 127 (R114). -/
def anchorArea : Nat := 128

/-- Words of one anchor copy (R114). -/
def copyWords : Nat := 64

/-- The most entries a bank holds (R44). -/
def bankCapacity : Nat := 256

/-- The least and the greatest log size (R80, R116, R126). -/
def logSizeMin : Nat := 1024
def logSizeMax : Nat := 262144

/-- The most records the fault queue holds (R175). -/
def faultDepth : Nat := 16

/-- The length of a refusal pulse in microseconds (R15). -/
def pulseMicros : Nat := 100

/-- The value at which the open timer (ms, R29) and the hold timer (µs, R75) stay. -/
def timerMax : Nat := 65535

/-- What a byte of the attached memory reads as that nothing has written. DESIGN CHOICE, unsafe: log entry 3. -/
def blankByte : BitVec 8 := 0

end Sys2Proof.Config
end

