-- ==== Sys2Proof/Machine/State.lean ====
section
/-! DEFINITION. Machine/State.lean: everything the data sheet gives the part, block by block (spec/00_scope.md, Block
Diagram), with the attached memory, the levels of the input pins and the queue of waiting commands; the outcomes a step can
stop with; and the state right after a POWER_ON reset. -/

namespace Sys2Proof.Machine

/-! ## Names of states, reasons and kinds -/

/-- The part states (R143). -/
inductive PartState where
  | startup | recovery | unformatted | run | formatting | halted
  deriving DecidableEq, Repr

/-- The two banks (R44). -/
inductive BankId where
  | b0 | b1
  deriving DecidableEq, Repr

/-- The bank states (R51). -/
inductive BankState where
  | free | capture | logWait | logging | applyWait | applying | retiring
  deriving DecidableEq, Repr

/-- The policies of a guard entry (R5). -/
inductive Policy where
  | plain | journaled | locked
  deriving DecidableEq, Repr

/-- The refusal actions (R5, R13). -/
inductive RefusalAction where
  | drop | dropAndReset
  deriving DecidableEq, Repr

/-- The classes of a write (R7). -/
inductive WriteClass where
  | range | anchor | log | plain | journaled | locked
  deriving DecidableEq, Repr

/-- The void reasons (R19). -/
inductive VoidReason where
  | unformatted | aborted | expired | overflow | refusedWrite | hostReset | noSlot | reset
  deriving DecidableEq, Repr

/-- The causes and reasons of fault records, outcome records and command statuses (R166, Cause and reason). -/
inductive Reason where
  | range | rangeRead | anchor | log | unjournaled | locked | holdExpired | noSlot
  | unformatted | aborted | expired | overflow | refusedWrite | hostReset | reset
  | logTooSmall | sequenceEnd | signature | crc | logFields
  | noTransaction | busyState | badParameter
  deriving DecidableEq, Repr

/-- The kinds of fault record (R174). -/
inductive FaultKind where
  | accessRefused | transactionFailed | anchorCopyInvalid | partialImageDiscarded
  deriving DecidableEq, Repr

/-- The results of an outcome record (R35). `none` is NONE, the value after reset. -/
inductive OutcomeResult where
  | none | accepted | empty | failed
  deriving DecidableEq, Repr

/-- The command statuses (R172). -/
inductive CommandStatus where
  | idle | busy | done | refused
  deriving DecidableEq, Repr

/-- The two anchor copies (R114). -/
inductive Copy where
  | a | b
  deriving DecidableEq, Repr

/-- The reset causes (R144). -/
inductive ResetCause where
  | powerOn | resetPin | soft | powerResume
  deriving DecidableEq, Repr

/-- The commands an anchor write can carry (R118). -/
inductive Carried where
  | applyGuards | format
  deriving DecidableEq, Repr

/-- What a held write awaits (R11): the hold condition to clear, a bank, or, its hold over, its memory write (R71). -/
inductive Awaits where
  | holdCondition | bank | port
  deriving DecidableEq, Repr

/-! ## Host port -/

/-- One guard entry (R5): its inclusive range, its policy and its refusal action. -/
structure GuardEntry where
  first  : Addr
  last   : Addr
  policy : Policy
  action : RefusalAction
  deriving DecidableEq, Repr

/-- The entry every reset gives: start 00001h, end 00000h, PLAIN, DROP (R4). -/
def GuardEntry.disabled : GuardEntry := ⟨1, 0, .plain, .drop⟩

/-- Eight guard entries, indexed 0 to 7 (R5). -/
abbrev GuardTable := Vector GuardEntry 8

/-- The table every reset gives (R4, R119, R168). -/
def noGuards : GuardTable := Vector.replicate 8 GuardEntry.disabled

/-- The host access in progress outside the held-write slot (R2): a PASS write, whose claim carries it, or a read that needs
memory, with the lanes found at its lookups and the lanes still needed (R68). -/
inductive HostAccess where
  | passWrite
  | read (lanes : Lanes) (found : Word) (need : Lanes)
  deriving DecidableEq, Repr

/-- The write in the held-write slot (R11). -/
structure HeldWrite where
  addr   : Addr
  data   : Word
  lanes  : Lanes
  cls    : WriteClass
  entry  : Option (Fin 8)
  awaits : Awaits
  deriving DecidableEq, Repr

/-- The hold timer (R75): elapsed microseconds, and whether it runs. -/
structure HoldTimer where
  micros  : Nat
  running : Bool
  deriving DecidableEq, Repr

/-- The host port (R2 to R18). `cycleTaken` says that the cycle now on the host bus has been taken; `driven` is the word
the device drives on HD; `pulse` is the time left of a refusal pulse in µs, absent when none is in progress (R15). -/
structure HostPort where
  access     : Option HostAccess
  slot       : Option HeldWrite
  holdTimer  : HoldTimer
  pulse      : Option Nat
  guards     : GuardTable
  cycleTaken : Bool
  driven     : Option Word
  deriving DecidableEq, Repr

/-! ## Transaction controller -/

/-- The host transaction context's state, with the bank in use in OPEN and the void reason in VOID (R19). -/
inductive Context where
  | idle
  | slotWait
  | opened (bank : BankId)
  | voided (reason : VoidReason)
  deriving DecidableEq, Repr

/-- The open timer (R29): elapsed milliseconds, the part of a millisecond in µs, and whether it runs. -/
structure OpenTimer where
  millis  : Nat
  micros  : Nat
  running : Bool
  deriving DecidableEq, Repr

/-- The outcome record (R35). -/
structure OutcomeRecord where
  result   : OutcomeResult
  reason   : Option Reason
  sequence : Option DWord
  entries  : Option Nat
  refused  : Option Nat
  deriving DecidableEq, Repr

/-- The transaction controller (R19, R20, R35, R37). -/
structure TxnController where
  context   : Context
  openTimer : OpenTimer
  refused   : Nat
  nextSeq   : DWord
  outcome   : OutcomeRecord
  terr      : Bool
  deriving DecidableEq, Repr

/-! ## Bank store -/

/-- One entry of a bank (R45). -/
structure Entry where
  addr    : Addr
  data    : Word
  lanes   : Lanes
  applied : Bool
  deriving DecidableEq, Repr

/-- The place of an image in the log: its start offset and its size (R51). -/
structure ImageSpan where
  start : Nat
  size  : Nat
  deriving DecidableEq, Repr

/-- One bank (R44, R51): its entries in capture order and its bank context. The address index, the entry count and the applied
count are views of the entries (R46, R51). -/
structure Bank where
  state   : BankState
  seq     : Option DWord
  entries : List Entry
  image   : Option ImageSpan
  target  : Option Nat
  deriving DecidableEq, Repr

/-- A FREE bank, empty (R55). -/
def Bank.empty : Bank := ⟨.free, none, [], none, none⟩

/-! ## Log writer and apply engine -/

/-- The log writer's work while WRITING: the bank in LOGGING and the image words completed (R92). -/
structure LogJob where
  bank  : BankId
  words : Nat
  deriving DecidableEq, Repr

/-- The log writer (R86 to R90). It is IDLE when `job` is absent. -/
structure LogWriter where
  job  : Option LogJob
  head : Nat
  used : Nat
  crc  : Word
  deriving DecidableEq, Repr

/-- The apply engine (R100). It is IDLE when `bank` is absent. -/
structure ApplyEngine where
  bank     : Option BankId
  inFlight : Option Nat
  deriving DecidableEq, Repr

/-! ## Anchor writer -/

/-- The in-part anchor image (R119). Its generation field always equals the durable generation, which is stored once, in
`AnchorWriter.generation`. -/
structure AnchorImage where
  logBase : Nat
  logSize : Nat
  tail    : Nat
  tailSeq : DWord
  guards  : GuardTable
  deriving DecidableEq, Repr

/-- An anchor write in flight (R118). -/
structure AnchorWrite where
  target     : Copy
  generation : DWord
  snapshot   : List Word
  completed  : Nat
  covers0    : Bool
  covers1    : Bool
  carried    : Option Carried
  deriving DecidableEq, Repr

/-- A block of log words in memory (R6). -/
structure LogRegion where
  base : Nat
  size : Nat
  deriving DecidableEq, Repr

/-- How far a FORMAT has gone (R127, R128): its clear write, its first anchor write, between the two writes, its second. -/
inductive FormatPhase where
  | clearing | firstWrite | secondDue | secondWrite
  deriving DecidableEq, Repr

/-- An accepted FORMAT (R127): the new region, the region in force at acceptance (absent when the part was UNFORMATTED), and
how far it has gone. -/
structure FormatJob where
  region : LogRegion
  former : Option LogRegion
  phase  : FormatPhase
  deriving DecidableEq, Repr

/-- The anchor writer (R118 to R130). `guardsDue` says that an accepted APPLY_GUARDS has been carried by no write yet (R121). -/
structure AnchorWriter where
  image      : AnchorImage
  generation : DWord
  lastCopy   : Option Copy
  write      : Option AnchorWrite
  pending    : Bool
  guardsDue  : Bool
  format     : Option FormatJob
  deriving DecidableEq, Repr

/-! ## Memory port and arbiter -/

/-- A claim on the memory port (R135), less its claimant, which is the place that holds it. A read's data is 0. -/
structure Access where
  write : Bool
  addr  : Addr
  lanes : Lanes
  data  : Word
  deriving DecidableEq, Repr

/-- The claims waiting, at most one per claimant (R135). -/
structure Claims where
  host    : Option Access
  anchor  : Option Access
  log     : Option Access
  apply   : Option Access
  startup : Option Access
  deriving DecidableEq, Repr

/-- The access in flight, with its claimant (R136). -/
structure InFlight where
  who    : Claimant
  access : Access
  deriving DecidableEq, Repr

/-- The memory port and arbiter (R131 to R141). It is IDLE when `inFlight` is absent. `lastAddr` is what MA[19:0] carries
between accesses; `msz` is MSZ[1:0] as sampled at the last reset. -/
structure MemoryPort where
  inFlight : Option InFlight
  waiting  : Claims
  burst    : Nat
  halt     : Bool
  lastAddr : Addr
  msz      : BitVec 2
  deriving DecidableEq, Repr

/-! ## Start-up controller -/

/-- The start-up report (R156). -/
structure StartupReport where
  cause          : ResetCause
  resets         : Nat
  copyUsed       : Option Copy
  copiesInvalid  : Nat
  replayed       : Nat
  partialImage   : Bool
  head           : Nat
  nextSeq        : DWord
  deriving DecidableEq, Repr

/-- The scan record (R145, R150). -/
structure ScanRecord where
  position : Nat
  expected : DWord
  scanned  : Nat
  crc      : Word
  deriving DecidableEq, Repr

/-- The start-up controller's place in its work (R147 to R154): the anchor words read so far; the image word the scan reads
next, the entry count its BEGIN gave and the first word of its current ENTRY; the entry being replayed and the words of its
record read again so far; the closing write; or no work. -/
inductive StartupPhase where
  | anchors (words : List Word)
  | scan (word : Nat) (count : Nat) (entryHead : Word)
  | replay (count : Nat) (entry : Nat) (record : List Word)
  | closing
  | done
  deriving DecidableEq, Repr

/-- The time-since-reset clock (R146): milliseconds, and the part of a millisecond in µs. -/
structure Clock where
  millis : DWord
  micros : Nat
  deriving DecidableEq, Repr

/-- The start-up controller (R143 to R160). `drivesHrst` is its drive of HRST#. -/
structure StartupController where
  part       : PartState
  report     : StartupReport
  scan       : ScanRecord
  phase      : StartupPhase
  clock      : Clock
  drivesHrst : Bool
  deriving DecidableEq, Repr

/-! ## Management port -/

/-- A fault record (R174). -/
structure FaultRecord where
  kind     : FaultKind
  cause    : Option Reason
  addr     : Option Addr
  sequence : Option DWord
  entry    : Option (Fin 8)
  stamp    : DWord
  deriving DecidableEq, Repr

/-- The configuration (R167). -/
structure Configuration where
  openLimit  : BitVec 16
  holdLimit  : BitVec 16
  burstLimit : Nat
  alertMask  : BitVec 4
  deriving DecidableEq, Repr

/-- The COMMAND item as last stored, and the code of a command whose transfer has ended and whose take has not come (R171). -/
structure CommandRecord where
  code   : Byte
  paramA : DWord
  paramB : DWord
  due    : Option Byte
  deriving DecidableEq, Repr

/-- The command status (R172). -/
structure StatusRecord where
  status : CommandStatus
  code   : Byte
  reason : Option Reason
  deriving DecidableEq, Repr

/-- The three counters (R178). -/
structure Counters where
  accepted : DWord
  durable  : DWord
  failed   : DWord
  deriving DecidableEq, Repr

/-- A write transfer in progress (R162, R164, R165): the item its first data byte has selected, the offset of the next byte, the
bytes held of a field that is not complete, whether a byte has been refused, and whether the command byte of COMMAND has been
acknowledged in it (R171). -/
structure WriteTransfer where
  item      : Option Nat
  offset    : Nat
  held      : List Byte
  refused   : Bool
  commanded : Bool
  deriving DecidableEq, Repr

/-- A transfer in progress in which the port takes part (R161): a write, or a read with the bytes of the item not yet sent (R163). -/
inductive Transfer where
  | write (w : WriteTransfer)
  | read (left : List Byte)
  deriving DecidableEq, Repr

/-- The management port (R161 to R180). `adr` is ADR[1:0] as sampled at the last reset. `transfer` is the transfer in progress,
absent where the port takes part in none. `acks` holds the acknowledge bits the port gave to the bytes of the last write command
that it could have taken, an address byte's first, and `readData` the bytes it sent in the last read command: the model's own record
of what the port put on SDA. -/
structure ManagementPort where
  adr      : BitVec 2
  pointer  : Byte
  editSel  : Fin 8
  liveSel  : Fin 8
  bankSel  : BankId
  entrySel : Byte
  config   : Configuration
  edit     : GuardTable
  command  : CommandRecord
  status   : StatusRecord
  queue    : List FaultRecord
  dropped  : Nat
  counters : Counters
  transfer : Option Transfer
  acks     : List Bool
  readData : List Byte
  deriving DecidableEq, Repr

/-! ## Pins, memory, the whole -/

/-- The host-side strobes (true is asserted), address and data as the host presents them (R1). -/
structure HostLines where
  ce   : Bool
  we   : Bool
  oe   : Bool
  ub   : Bool
  lb   : Bool
  addr : Addr
  data : Word
  deriving DecidableEq, Repr

/-- The levels of the input pins. -/
structure Pins where
  host    : HostLines
  straps  : Straps
  txnHigh : Bool
  rstHigh : Bool
  pfwHigh : Bool
  deriving DecidableEq, Repr

/-- The attached memory, byte lane by byte lane: the lower lane of word a under key 2a, the upper under 2a + 1, keys strictly
rising and no byte listed that reads as blank. -/
abbrev Memory := List Host.Cell

/-- The part, the attached memory, the input pins and the commands waiting, first in, first out. -/
structure State where
  host    : HostPort
  txn     : TxnController
  bank0   : Bank
  bank1   : Bank
  log     : LogWriter
  apply   : ApplyEngine
  anchor  : AnchorWriter
  port    : MemoryPort
  start   : StartupController
  mgmt    : ManagementPort
  pins    : Pins
  mem     : Memory
  torn    : Nat
  pending : List Instr
  deriving DecidableEq, Repr

/-! ## Why a step can stop -/

/-- The faults. -/
inductive Fault where
  /-- Raised by GRANT alone, when the claim it would grant names a word at or above the memory size: a word the attached
  memory does not have. R134 says no claimant hands the port such an address, so no run from reset raises it. Safe: the model
  stops where the data sheet gives nothing. -/
  | absentWord
  deriving DecidableEq, Repr

/-- The refusals. -/
inductive Refusal where
  /-- A command that has no meaning yet; raised by an arm of `exec` alone, and by none today. Safe. -/
  | notModelled (mnemonic : String)
  deriving DecidableEq, Repr

/-! ## Reset values, block by block -/

/-- The host port after every reset (R4), less `cycleTaken`, which is false: a cycle still active is taken again. -/
def HostPort.reset : HostPort := ⟨none, none, ⟨0, false⟩, none, noGuards, false, none⟩

/-- The outcome record after every reset (R35). -/
def OutcomeRecord.reset : OutcomeRecord := ⟨.none, none, none, none, none⟩

/-- The transaction controller after every reset (R19, R20, R35, R37). -/
def TxnController.reset : TxnController := ⟨.idle, ⟨0, 0, false⟩, 0, 1, .reset, false⟩

/-- The log writer after every reset (R96). -/
def LogWriter.reset : LogWriter := ⟨none, 0, 0, 0xFFFF⟩

/-- The apply engine after every reset (R100). -/
def ApplyEngine.reset : ApplyEngine := ⟨none, none⟩

/-- The in-part anchor image after every reset (R119). -/
def AnchorImage.reset : AnchorImage := ⟨0, 0, 0, 1, noGuards⟩

/-- The anchor writer after every reset (R118). -/
def AnchorWriter.reset : AnchorWriter := ⟨.reset, 0, none, none, false, false, none⟩

/-- The memory port after every reset, with MSZ[1:0] sampled (R131, R134, R141). -/
def MemoryPort.reset (msz : BitVec 2) : MemoryPort := ⟨none, ⟨none, none, none, none, none⟩, 0, false, 0, msz⟩

/-- The start values of the start-up report, with the new cause and count (R145, R156). -/
def StartupReport.reset (cause : ResetCause) (resets : Nat) : StartupReport := ⟨cause, resets, none, 0, 0, false, 0, 1⟩

/-- The start-up controller after every reset (R145). -/
def StartupController.reset (cause : ResetCause) (resets : Nat) : StartupController :=
  ⟨.startup, .reset cause resets, ⟨0, 1, 0, 0xFFFF⟩, .anchors [], ⟨0, 0⟩, true⟩

/-- The configuration after every reset (R145, R167). -/
def Configuration.reset : Configuration := ⟨0, 0, 8, 0xF⟩

/-- The management port after every reset, with ADR[1:0] sampled and the fault queue, its dropped count and the counters
as given (R179; R175 and R178 say which are kept). -/
def ManagementPort.reset (adr : BitVec 2) (queue : List FaultRecord) (dropped : Nat) (counters : Counters) : ManagementPort :=
  { adr := adr, pointer := 0, editSel := 0, liveSel := 0, bankSel := .b0, entrySel := 0, config := .reset,
    edit := noGuards, command := ⟨0, 0, 0, none⟩, status := ⟨.idle, 0, none⟩, queue := queue, dropped := dropped,
    counters := counters, transfer := none, acks := [], readData := [] }

/-- The levels of the input pins at `State.reset`, which the data sheet does not give. DESIGN CHOICE, unsafe: log entry 2. -/
def Pins.reset : Pins := ⟨⟨false, false, false, false, false, 0, 0⟩, ⟨0, 0⟩, false, true, true⟩

/-- The part right after a POWER_ON reset (R145), on a memory nothing has written, with no command waiting. -/
def State.reset : State where
  host    := .reset
  txn     := .reset
  bank0   := .empty
  bank1   := .empty
  log     := .reset
  apply   := .reset
  anchor  := .reset
  port    := .reset 0
  start   := .reset .powerOn 0
  mgmt    := .reset 0 [] 0 ⟨0, 0, 0⟩
  pins    := .reset
  mem     := []
  torn    := 0
  pending := []

end Sys2Proof.Machine
end

