-- ==== Sys2Proof/Machine/Operands.lean ====
section
/-! DEFINITION. Machine/Operands.lean: byte lanes, bytes and words, and the forms in which the host presents an access. -/

namespace Sys2Proof.Machine

/-! ## Lane sets -/

/-- Both lanes. -/
def bothLanes : Lanes := ⟨true, true⟩

/-- The lane set with neither lane (R1). -/
def noLane (l : Lanes) : Bool := !l.upper && !l.lower

/-- The union of two lane sets (R48). -/
def laneUnion (l k : Lanes) : Lanes := ⟨l.upper || k.upper, l.lower || k.lower⟩

/-- The lanes of `l` outside `k`. -/
def lanesWithout (l k : Lanes) : Lanes := ⟨l.upper && !k.upper, l.lower && !k.lower⟩

/-! ## Words and their bytes -/

/-- The upper lane, bits 15:8. -/
def upperByte (w : Word) : Byte := w.extractLsb' 8 8

/-- The lower lane, bits 7:0. -/
def lowerByte (w : Word) : Byte := w.extractLsb' 0 8

/-- The word of two lanes. -/
def joinBytes (upper lower : Byte) : Word := upper ++ lower

/-- `new` on the lanes of `l`, `old` on the others. -/
def pickLanes (l : Lanes) (new old : Word) : Word :=
  joinBytes (if l.upper then upperByte new else upperByte old) (if l.lower then lowerByte new else lowerByte old)

/-- `w` on the lanes of `l`, 00h on the others (R18, R45). -/
def maskLanes (l : Lanes) (w : Word) : Word := pickLanes l w 0

/-! ## Two-word and byte-string forms -/

/-- Bits 31:16 of a 32-bit field, the first of its two words (R83, R114). -/
def highHalf (d : DWord) : Word := d.extractLsb' 16 16

/-- Bits 15:0 of a 32-bit field. -/
def lowHalf (d : DWord) : Word := d.extractLsb' 0 16

/-- A 32-bit field of its two words. -/
def joinHalves (hi lo : Word) : DWord := hi ++ lo

/-- The low 20 bits of a two-word address: bits 3:0 of the first word are bits 19:16 (R83, R114). -/
def joinAddr (hi lo : Word) : Addr := hi.extractLsb' 0 4 ++ lo

/-- Bits 19:16 of an address in bits 3:0 of a word. -/
def addrHigh (a : Addr) : Word := BitVec.ofNat 16 (a.toNat / 65536)

/-- Bits 15:0 of an address. -/
def addrLow (a : Addr) : Word := a.extractLsb' 0 16

/-- `v` in `n` bytes, most significant first (R165). -/
def bigEndian : Nat → Nat → List Byte
  | 0, _ => []
  | n + 1, v => BitVec.ofNat 8 (v / 256 ^ n) :: bigEndian n v

/-- The number a byte string spells, most significant byte first (R165). -/
def fromBytes (bs : List Byte) : Nat := bs.foldl (fun v b => v * 256 + b.toNat) 0

/-! ## The host's access (R1) -/

/-- An access as the host port takes it (R1, R2). -/
structure HostCycle where
  write : Bool
  addr  : Addr
  data  : Word
  lanes : Lanes
  deriving DecidableEq, Repr

/-- R1: the host access the lines present, if any. With HWE# asserted it is a write, whether or not HOE# is asserted. -/
def recognised (h : HostLines) : Option HostCycle :=
  if h.ce && (h.we || h.oe) then some ⟨h.we, h.addr, h.data, ⟨h.ub, h.lb⟩⟩ else none

/-- The lines of a write cycle (R1). -/
def writeLines (addr : Addr) (data : Word) (lanes : Lanes) (oe : Bool) : HostLines :=
  ⟨true, true, oe, lanes.upper, lanes.lower, addr, data⟩

/-- The lines of a read cycle (R1). What HD carries is the device's to drive; the field keeps what it held. -/
def readLines (addr : Addr) (lanes : Lanes) (data : Word) : HostLines :=
  ⟨true, false, true, lanes.upper, lanes.lower, addr, data⟩

/-- The lines once the host has ended its cycle (R3): chip enable and strobes deasserted. -/
def endLines (h : HostLines) : HostLines := { h with ce := false, we := false, oe := false }

end Sys2Proof.Machine
end

