-- ==== Sys2Proof/Machine/Memory.lean ====
section
/-! DEFINITION. Machine/Memory.lean: the attached memory. A byte lane is the smallest unit an access writes (R131 to R133): the
lower lane of word a has key 2a, the upper lane key 2a + 1. -/

namespace Sys2Proof.Machine

/-- The byte at a key; one not listed reads as blank. -/
def readByte : Memory → Nat → Byte
  | [], _ => Config.blankByte
  | (a, b) :: rest, k => if a = k then b else readByte rest k

/-- Writing one byte keeps the list strictly rising and lists no byte that reads as blank. -/
def writeByte : Memory → Nat → Byte → Memory
  | [], k, v => if v = Config.blankByte then [] else [(k, v)]
  | (a, b) :: rest, k, v =>
    if k < a then (if v = Config.blankByte then (a, b) :: rest else (k, v) :: (a, b) :: rest)
    else if a = k then (if v = Config.blankByte then rest else (k, v) :: rest)
    else (a, b) :: writeByte rest k v

/-- The canonical form: keys strictly rising, no byte listed that reads as blank. -/
def memoryWf : Memory → Bool
  | [] => true
  | (a, b) :: rest => b != Config.blankByte && rest.all (fun c => decide (a < c.1)) && memoryWf rest

/-- The key of a word's lower lane. -/
def lowerKey (a : Addr) : Nat := 2 * a.toNat

/-- The key of a word's upper lane. -/
def upperKey (a : Addr) : Nat := 2 * a.toNat + 1

/-- The word at an address. -/
def readWord (m : Memory) (a : Addr) : Word := joinBytes (readByte m (upperKey a)) (readByte m (lowerKey a))

/-- A word write: only the lanes of the lane set change (R133). -/
def writeLanes (m : Memory) (a : Addr) (l : Lanes) (w : Word) : Memory :=
  let m := if l.lower then writeByte m (lowerKey a) (lowerByte w) else m
  if l.upper then writeByte m (upperKey a) (upperByte w) else m

end Sys2Proof.Machine
end

