-- ==== Sys2Proof/Machine/Crc.lean ====
section
/-! DEFINITION. Machine/Crc.lean: the CRC of R85. -/

namespace Sys2Proof.Machine

/-- R85: one input bit is taken into the register. -/
def crcBit (crc : Word) (b : Bool) : Word :=
  if crc.msb != b then (crc <<< 1) ^^^ 0x1021 else crc <<< 1

/-- R85: one word is taken in, bit 15 first. -/
def crcWord (crc : Word) (w : Word) : Word :=
  [15, 14, 13, 12, 11, 10, 9, 8, 7, 6, 5, 4, 3, 2, 1, 0].foldl (fun c i => crcBit c (w.getLsbD i)) crc

/-- R85: the register before the first word. -/
def crcInit : Word := 0xFFFF

/-- R85: the CRC of a list of words. -/
def crcWords (ws : List Word) : Word := ws.foldl crcWord crcInit

end Sys2Proof.Machine
end

