-- ==== Sys2Proof/Machine/Records.lean ====
section
/-! DEFINITION. Machine/Records.lean: the words of journal records (R82 to R86) and of anchor copies (R114 to R117). -/

namespace Sys2Proof.Machine

/-! ## Journal records -/

/-- The lane-set code of an ENTRY record's bits 11:10 (R83): 01 LOWER, 10 UPPER, 11 BOTH. -/
def laneCode (l : Lanes) : Nat := (if l.upper then 2 else 0) + (if l.lower then 1 else 0)

/-- R83: the words of a BEGIN record. -/
def beginRecord (seq : DWord) (n : Nat) : List Word := [0xA000, highHalf seq, lowHalf seq, BitVec.ofNat 16 n]

/-- R83: the words of an ENTRY record. -/
def entryRecord (e : Entry) : List Word :=
  [BitVec.ofNat 16 (0x5000 + 0x400 * laneCode e.lanes) ||| addrHigh e.addr, addrLow e.addr, e.data]

/-- R83: the words of a COMMIT record. -/
def commitRecord (seq : DWord) (crc : Word) : List Word := [0xC000, highHalf seq, lowHalf seq, crc]

/-- R82, R86: the words of an image that its CRC covers: BEGIN and one ENTRY per entry in capture order. -/
def imageBody (seq : DWord) (es : List Entry) : List Word := beginRecord seq es.length ++ es.flatMap entryRecord

/-- R82: the size of the image of n entries. -/
def imageSize (n : Nat) : Nat := 3 * n + 8

/-- R82, R92: image word j, with `crc` the word COMMIT word 3 carries. -/
def imageWord (seq : DWord) (es : List Entry) (crc : Word) (j : Nat) : Word :=
  (imageBody seq es ++ commitRecord seq crc).getD j 0

/-- R82, R86: a whole image. -/
def wholeImage (seq : DWord) (es : List Entry) : List Word :=
  imageBody seq es ++ commitRecord seq (crcWords (imageBody seq es))

/-- Bits 15:12 of a record's first word (R83). -/
def recordKind (w : Word) : Nat := w.toNat / 4096

/-- The lane set an ENTRY record's first word carries in bits 11:10 (R83). -/
def recordLanes (w : Word) : Lanes := ⟨w.getLsbD 11, w.getLsbD 10⟩

/-! ## Anchor copies -/

/-- R115: the code of a policy. -/
def policyCode : Policy → Nat
  | .plain => 0
  | .journaled => 1
  | .locked => 2

/-- R115: the code of a refusal action. -/
def actionCode : RefusalAction → Nat
  | .drop => 0
  | .dropAndReset => 1

/-- R114: the four words of a guard entry. -/
def guardWords (g : GuardEntry) : List Word :=
  [addrHigh g.first, addrLow g.first,
   BitVec.ofNat 16 (0x4000 * policyCode g.policy + 0x2000 * actionCode g.action) ||| addrHigh g.last, addrLow g.last]

/-- The two words of a 32-bit field given as a number (R114). -/
def numberWords (n : Nat) : List Word := [highHalf (BitVec.ofNat 32 n), lowHalf (BitVec.ofNat 32 n)]

/-- R114: copy words 0 to 62 of an image with a generation. -/
def copyBody (img : AnchorImage) (generation : DWord) : List Word :=
  [0x5356, 0x4A42, highHalf generation, lowHalf generation] ++ numberWords img.logBase ++ numberWords img.logSize
    ++ numberWords img.tail ++ [highHalf img.tailSeq, lowHalf img.tailSeq]
    ++ img.guards.toList.flatMap guardWords ++ List.replicate 19 0

/-- R114, R121: the 64 words of a copy, the CRC of words 0 to 62 last. -/
def copySnapshot (img : AnchorImage) (generation : DWord) : List Word :=
  copyBody img generation ++ [crcWords (copyBody img generation)]

/-- The 32-bit field at copy words w and w + 1. -/
def copyField (copy : List Word) (w : Nat) : DWord := joinHalves (copy.getD w 0) (copy.getD (w + 1) 0)

/-- R115: the policy of a code; 11 is taken as LOCKED. -/
def policyOf (w : Word) : Policy :=
  if w.getLsbD 15 then .locked else if w.getLsbD 14 then .journaled else .plain

/-- R114, R115: guard entry e of a copy; only the named bits are used. -/
def copyGuard (copy : List Word) (e : Nat) : GuardEntry :=
  { first := joinAddr (copy.getD (12 + 4 * e) 0) (copy.getD (13 + 4 * e) 0)
    last := joinAddr (copy.getD (14 + 4 * e) 0) (copy.getD (15 + 4 * e) 0)
    policy := policyOf (copy.getD (14 + 4 * e) 0)
    action := if (copy.getD (14 + 4 * e) 0).getLsbD 13 then .dropAndReset else .drop }

/-- R114: the guard table of a copy. -/
def copyGuards (copy : List Word) : GuardTable := Vector.ofFn fun e => copyGuard copy e.val

/-- R115: the image a copy loads. -/
def copyImage (copy : List Word) : AnchorImage :=
  { logBase := (copyField copy 4).toNat, logSize := (copyField copy 6).toNat, tail := (copyField copy 8).toNat,
    tailSeq := copyField copy 10, guards := copyGuards copy }

/-- R114: the generation of a copy. -/
def copyGeneration (copy : List Word) : DWord := copyField copy 2

/-- R116, tests 3 to 5, and R126: a log region that fits a memory of `size` words. -/
def regionFits (size : Nat) (r : LogRegion) : Bool :=
  decide (Config.anchorArea ≤ r.base) && decide (Config.logSizeMin ≤ r.size) && decide (r.size ≤ Config.logSizeMax)
    && decide (r.base + r.size ≤ size)

/-- R116, R147: the first test a copy fails, as the start-up controller notes it; none when the copy is valid. -/
def copyFailure (size : Nat) (copy : List Word) : Option Reason :=
  if copy.getD 0 0 ≠ 0x5356 ∨ copy.getD 1 0 ≠ 0x4A42 then some .signature
  else if copy.getD 63 0 ≠ crcWords (copy.take 63) then some .crc
  else if regionFits size ⟨(copyImage copy).logBase, (copyImage copy).logSize⟩
      && decide ((copyImage copy).tail < (copyImage copy).logSize) then none
  else some .logFields

/-- R117: generation g is newer than h. -/
def newerGeneration (g h : DWord) : Bool := decide (1 ≤ (g - h).toNat) && decide ((g - h).toNat ≤ 0x7FFFFFFF)

/-- R117: the newest valid copy of A and B. -/
def newestCopy (size : Nat) (a b : List Word) : Option Copy :=
  match copyFailure size a, copyFailure size b with
  | none, none => if newerGeneration (copyGeneration b) (copyGeneration a) then some .b else some .a
  | none, some _ => some .a
  | some _, none => some .b
  | some _, some _ => none

end Sys2Proof.Machine
end

