-- ==== Sys2Proof/Machine/Ops.lean ====
section
/-! DEFINITION. Machine/Ops.lean: the named operations that several blocks share: bank lookups and updates, offers to the
fault queue, the counters, the timebase, and claims and completions at the memory port. -/

namespace Sys2Proof.Machine

/-! ## Part states -/

/-- The part states in which the host port takes and classifies accesses (R3), the transaction controller takes events
(R21), and a command can be taken (R173). -/
def PartState.working : PartState → Bool
  | .unformatted => true
  | .run => true
  | .formatting => true
  | .startup => false
  | .recovery => false
  | .halted => false

/-- R134: the memory size in words, from MSZ[1:0] as sampled at the last reset. -/
def State.memSize (s : State) : Nat := 131072 * 2 ^ s.port.msz.toNat

/-! ## Banks (R44 to R62) -/

/-- The other bank. -/
def BankId.other : BankId → BankId
  | .b0 => .b1
  | .b1 => .b0

/-- One bank of the bank store. -/
def State.bank (s : State) : BankId → Bank
  | .b0 => s.bank0
  | .b1 => s.bank1

/-- The bank store with one bank replaced. -/
def State.setBank (s : State) (b : BankId) (k : Bank) : State :=
  match b with
  | .b0 => { s with bank0 := k }
  | .b1 => { s with bank1 := k }

/-- A committed bank (spec/00_scope.md, TERMS). -/
def BankState.committed : BankState → Bool
  | .logWait => true
  | .logging => true
  | .applyWait => true
  | .applying => true
  | .retiring => true
  | .free => false
  | .capture => false

/-- The applied count (R51): the entries whose applied flag is true. -/
def Bank.appliedCount (k : Bank) : Nat := k.entries.countP (·.applied)

/-- R62: the entry a bank has for a word. -/
def Bank.lookup (k : Bank) (a : Addr) : Option Entry := k.entries.find? (·.addr == a)

/-- The address index (R46): the position of the entry a bank has for a word. -/
def Bank.position (k : Bank) (a : Addr) : Option Nat := k.entries.findIdx? (·.addr == a)

/-- R73: the position of the unapplied entry a bank has for a word. -/
def Bank.unappliedAt (k : Bank) (a : Addr) : Option Nat := k.entries.findIdx? fun e => e.addr == a && !e.applied

/-- The rank of a bank's sequence number among the committed banks' (R32, R54). -/
def Bank.rank (k : Bank) : Nat := (k.seq.getD 0).toNat

/-- R53: the lower-numbered FREE bank. -/
def State.freeBank (s : State) : Option BankId :=
  if s.bank0.state = .free then some .b0 else if s.bank1.state = .free then some .b1 else none

/-- The bank in a state, and of two the one with the lower sequence number (R90, R101). -/
def State.oldestIn (s : State) (st : BankState) : Option BankId :=
  if s.bank0.state = st then
    if s.bank1.state = st ∧ s.bank1.rank < s.bank0.rank then some .b1 else some .b0
  else if s.bank1.state = st then some .b1
  else none

/-- R70: the hold condition for a word: some committed bank has an entry for it, applied or not, whatever the lanes. -/
def State.holds (s : State) (a : Addr) : Bool :=
  (s.bank0.state.committed && (s.bank0.lookup a).isSome) || (s.bank1.state.committed && (s.bank1.lookup a).isSome)

/-- R48: a write merged into an entry. -/
def mergeEntry (e : Entry) (data : Word) (lanes : Lanes) : Entry :=
  { e with data := pickLanes lanes data e.data, lanes := laneUnion e.lanes lanes }

/-- R47 to R49: the entries after a capture; none when the bank overflows. -/
def captureEntries (es : List Entry) (a : Addr) (data : Word) (lanes : Lanes) : Option (List Entry) :=
  if es.any (·.addr == a) then some (es.map fun e => if e.addr == a then mergeEntry e data lanes else e)
  else if es.length < Config.bankCapacity then some (es ++ [⟨a, maskLanes lanes data, lanes, false⟩])
  else none

/-! ## Fault queue and counters (R174 to R178) -/

/-- R175: a record is offered. -/
def ManagementPort.offer (m : ManagementPort) (r : FaultRecord) : ManagementPort :=
  if m.queue.length < Config.faultDepth then { m with queue := m.queue ++ [r] }
  else { m with dropped := min 255 (m.dropped + 1) }

/-- A record is offered to the fault queue. -/
def State.offer (s : State) (r : FaultRecord) : State := { s with mgmt := s.mgmt.offer r }

/-- R12: the ACCESS_REFUSED record of a refused access is offered. -/
def State.offerRefused (s : State) (cause : Reason) (a : Addr) (entry : Option (Fin 8)) : State :=
  s.offer ⟨.accessRefused, some cause, some a, none, entry, s.start.clock.millis⟩

/-- R178: a counter counts once, and stays at FFFFFFFFh. -/
def countOnce (c : DWord) : DWord := if c = BitVec.allOnes 32 then c else c + 1

/-! ## The timebase (R15, R29, R75, R146) -/

/-- R29: the open timer after n µs; it stays at 65,535 ms. -/
def OpenTimer.advance (t : OpenTimer) (n : Nat) : OpenTimer :=
  if t.running then
    let total := min (Config.timerMax * 1000) (t.millis * 1000 + t.micros + n)
    { t with millis := total / 1000, micros := total % 1000 }
  else t

/-- R75: the hold timer after n µs; it stays at 65,535 µs. -/
def HoldTimer.advance (t : HoldTimer) (n : Nat) : HoldTimer :=
  if t.running then { t with micros := min Config.timerMax (t.micros + n) } else t

/-- R146: the time-since-reset clock after n µs; FFFFFFFFh is followed by 0. -/
def Clock.advance (c : Clock) (n : Nat) : Clock :=
  ⟨c.millis + BitVec.ofNat 32 ((c.micros + n) / 1000), (c.micros + n) % 1000⟩

/-- n µs of the timebase pass. In HALTED the timebase is frozen (R146). -/
def State.advance (s : State) (n : Nat) : State :=
  if s.start.part = .halted then s
  else
    { s with
      host := { s.host with holdTimer := s.host.holdTimer.advance n, pulse := s.host.pulse.map (· - n) }
      txn := { s.txn with openTimer := s.txn.openTimer.advance n }
      start := { s.start with clock := s.start.clock.advance n } }

/-! ## The memory port (R135 to R141) -/

/-- The claim a claimant has waiting. -/
def Claims.get (c : Claims) : Claimant → Option Access
  | .host => c.host
  | .anchor => c.anchor
  | .log => c.log
  | .apply => c.apply
  | .startup => c.startup

/-- The waiting claims with one claimant's replaced. -/
def Claims.set (c : Claims) (who : Claimant) (x : Option Access) : Claims :=
  match who with
  | .host => { c with host := x }
  | .anchor => { c with anchor := x }
  | .log => { c with log := x }
  | .apply => { c with apply := x }
  | .startup => { c with startup := x }

/-- A claim is made: it waits for a grant (R135). -/
def State.claim (s : State) (who : Claimant) (x : Access) : State :=
  { s with port := { s.port with waiting := s.port.waiting.set who (some x) } }

/-- The access in flight, when it is the named claimant's (R136). -/
def State.flightOf (s : State) (who : Claimant) : Option Access :=
  match s.port.inFlight with
  | some f => if f.who = who then some f.access else none
  | none => none

/-- R135: a claimant with no claim waiting and none in flight. -/
def State.canClaim (s : State) (who : Claimant) : Bool :=
  (s.port.waiting.get who).isNone && (s.flightOf who).isNone

/-- R132, R133: the access in flight ends. A write is then durable, only the lanes of its lane set changed; the port is IDLE. -/
def State.landed (s : State) (x : Access) : State :=
  { s with
    port := { s.port with inFlight := none }
    mem := if x.write then writeLanes s.mem x.addr x.lanes x.data else s.mem }

/-! ## HALTED -/

/-- R140, R157: the part enters HALTED: no further grant is made. -/
def State.enterHalted (s : State) : State :=
  { s with start := { s.start with part := .halted }, port := { s.port with halt := true } }

end Sys2Proof.Machine
end

