-- ==== Sys2Proof/Machine/Flags.lean ====
section
/-! DEFINITION. Machine/Flags.lean: the levels of the output lines. TERR alone is stored (`TxnController.terr`); the others
follow the state at every moment, so they are views of it. -/

namespace Sys2Proof.Machine

/-- R38: SLOT is high. -/
def State.slotHigh (s : State) : Bool :=
  s.start.part == .run && s.txn.context == .idle && s.freeBank.isSome

/-- A bank that keeps TBSY high (R39). -/
def BankState.loggingOrWaiting (b : BankState) : Bool := b == .logWait || b == .logging

/-- R39: TBSY is high. -/
def State.tbsyHigh (s : State) : Bool := s.bank0.state.loggingOrWaiting || s.bank1.state.loggingOrWaiting

/-- R37: TERR is high. -/
def State.terrHigh (s : State) : Bool := s.txn.terr

/-- R2: an access is in progress at the host port, in the held-write slot or out of it. -/
def State.hostBusy (s : State) : Bool := s.host.access.isSome || s.host.slot.isSome

/-- A cycle is on the host bus that the host port has not taken (R2, R3). -/
def State.cycleWaiting (s : State) : Bool := (recognised s.pins.host).isSome && !s.host.cycleTaken

/-- R2 to R4: HWAIT# is low: through a start-up (and a HALTED state entered from one), while an access is in progress, and
while a recognised cycle is held unclassified. -/
def State.hwaitLow (s : State) : Bool := s.start.drivesHrst || s.hostBusy || s.cycleWaiting

/-- R15, R159: HRST# is low: the start-up controller or the refusal pulse drives it. -/
def State.hrstLow (s : State) : Bool := s.start.drivesHrst || s.host.pulse.isSome

/-- R166, Alert mask: the mask bit of a fault kind. -/
def FaultKind.maskBit : FaultKind → Nat
  | .accessRefused => 0
  | .transactionFailed => 1
  | .anchorCopyInvalid => 2
  | .partialImageDiscarded => 3

/-- R177: ALERT# is low: the queue holds a record whose kind the alert mask enables. -/
def State.alertLow (s : State) : Bool := s.mgmt.queue.any fun r => s.mgmt.config.alertMask.getLsbD r.kind.maskBit

/-- The memory-side signals (true is the low, asserted level), with the word driven on MD. -/
structure MemorySignals where
  addr : Addr
  ce   : Bool
  oe   : Bool
  we   : Bool
  ub   : Bool
  lb   : Bool
  data : Option Word
  deriving DecidableEq, Repr

/-- R131 to R133: the memory-side signals. -/
def State.memorySignals (s : State) : MemorySignals :=
  match s.port.inFlight with
  | none => ⟨s.port.lastAddr, false, false, false, false, false, none⟩
  | some f =>
    ⟨f.access.addr, true, !f.access.write, f.access.write, f.access.lanes.upper, f.access.lanes.lower,
      if f.access.write then some f.access.data else none⟩

end Sys2Proof.Machine
end

