-- ==== Sys2Proof/Machine/HostOps.lean ====
section
/-! DEFINITION. Machine/HostOps.lean: the operations the host port and the transaction controller share: voiding, refusals,
classification, capture, holding, the taking of a host cycle, and what each does when a bank becomes FREE. -/

namespace Sys2Proof.Machine

/-! ## Voiding and the held-write slot -/

/-- The open timer stopped at 0 (R29). -/
def OpenTimer.stopped : OpenTimer := ⟨0, 0, false⟩

/-- R14: a silent refusal is counted in the host transaction context; the count saturates at 65,535. -/
def State.countSilent (s : State) : State := { s with txn := { s.txn with refused := min 65535 (s.txn.refused + 1) } }

/-- R11, R75: the held-write slot is emptied and its timer stops. -/
def State.clearSlot (s : State) : State :=
  { s with host := { s.host with slot := none, holdTimer := { s.host.holdTimer with running := false } } }

/-- The write in the held-write slot, when it awaits what is named. -/
def State.slotAwaiting (s : State) (w : Awaits) : Option HeldWrite :=
  match s.host.slot with
  | some h => if h.awaits = w then some h else none
  | none => none

/-- R24: a write held awaiting a bank is refused silently and counted. -/
def State.refuseWaiting (s : State) : State :=
  match s.slotAwaiting .bank with
  | some _ => s.clearSlot.countSilent
  | none => s

/-- R24: a void event with its reason. In IDLE and in VOID it is ignored. -/
def State.voidTxn (s : State) (r : VoidReason) : State :=
  match s.txn.context with
  | .opened b =>
    { s.setBank b .empty with txn := { s.txn with context := .voided r, openTimer := .stopped } }
  | .slotWait => ({ s with txn := { s.txn with context := .voided r, openTimer := .stopped } }).refuseWaiting
  | .idle => s
  | .voided _ => s

/-- R15, R16: a refusal pulse starts or restarts, with its HOST_RESET notice. -/
def State.startPulse (s : State) : State :=
  ({ s with host := { s.host with pulse := some Config.pulseMicros } }).voidTxn .hostReset

/-- R13: the action of a refusal is carried out. -/
def State.refusalAction (s : State) (action : RefusalAction) : State :=
  match action with
  | .drop => s
  | .dropAndReset => s.startPulse

/-! ## Classification (R5 to R7) -/

/-- R5: an entry contains an address; a disabled entry, its start above its end, contains none. -/
def GuardEntry.contains (g : GuardEntry) (a : Addr) : Bool := decide (g.first ≤ a) && decide (a ≤ g.last)

/-- R5: the lowest-indexed enabled entry that contains an address. -/
def firstGuard (t : GuardTable) (a : Addr) : Option (Fin 8) := (List.finRange 8).find? fun i => (t[i]).contains a

/-- A word lies in a region (R6). -/
def LogRegion.contains (r : LogRegion) (a : Addr) : Bool := decide (r.base ≤ a.toNat) && decide (a.toNat < r.base + r.size)

/-- The region of the in-part anchor image (R80). -/
def State.imageRegion (s : State) : LogRegion := ⟨s.anchor.image.logBase, s.anchor.image.logSize⟩

/-- R6: the log regions in force. -/
def State.regionsInForce (s : State) : List LogRegion :=
  match s.start.part with
  | .run => [s.imageRegion]
  | .formatting =>
    match s.anchor.format with
    | some j => j.former.toList ++ [j.region]
    | none => []
  | .unformatted => []
  | .startup => []
  | .recovery => []
  | .halted => []

/-- A word lies in a log region in force (R6). -/
def State.inLog (s : State) (a : Addr) : Bool := s.regionsInForce.any fun r => r.contains a

/-- What R7 decides of a write: its class, the guard entry that gave it, and the action. -/
structure Classified where
  cls    : WriteClass
  entry  : Option (Fin 8)
  action : RefusalAction
  deriving DecidableEq, Repr

/-- The class a policy gives (R7, test 4). -/
def Policy.writeClass : Policy → WriteClass
  | .plain => .plain
  | .journaled => .journaled
  | .locked => .locked

/-- R7: the first test that matches decides. -/
def State.classify (s : State) (a : Addr) : Classified :=
  if s.memSize ≤ a.toNat then ⟨.range, none, .drop⟩
  else if a.toNat < Config.anchorArea then ⟨.anchor, none, .drop⟩
  else if s.inLog a then ⟨.log, none, .drop⟩
  else
    match firstGuard s.host.guards a with
    | some i => ⟨(s.host.guards[i]).policy.writeClass, some i, (s.host.guards[i]).action⟩
    | none => ⟨.plain, none, .drop⟩

/-! ## Routing a write (R8 to R14) -/

/-- R12, R13: a refusal: its record is offered and its action carried out. -/
def State.refuse (s : State) (cause : Reason) (a : Addr) (k : Classified) : State :=
  (s.offerRefused cause a k.entry).refusalAction k.action

/-- R8, R27: a LOCKED refusal: the record, then the REFUSED_WRITE notice, then the action. -/
def State.refuseLocked (s : State) (a : Addr) (k : Classified) : State :=
  ((s.offerRefused .locked a k.entry).voidTxn .refusedWrite).refusalAction k.action

/-- R10, R47 to R49: a write captured into a bank; the 257th distinct word voids the transaction and is refused silently. -/
def State.capture (s : State) (b : BankId) (a : Addr) (data : Word) (lanes : Lanes) : State :=
  match captureEntries (s.bank b).entries a data lanes with
  | some es => s.setBank b { s.bank b with entries := es }
  | none => (s.voidTxn .overflow).countSilent

/-- R73: the promotion target of a bank in APPLYING is set to the word's unapplied entry. -/
def State.promoteIn (s : State) (b : BankId) (a : Addr) : State :=
  if (s.bank b).state = .applying then
    match (s.bank b).unappliedAt a with
    | some i => s.setBank b { s.bank b with target := some i }
    | none => s
  else s

/-- R11, R75: a write enters the held-write slot and the hold timer starts. -/
def State.holdWrite (s : State) (h : HeldWrite) : State :=
  { s with host := { s.host with slot := some h, holdTimer := ⟨0, true⟩ } }

/-- R9: a PASS write claims the memory port. -/
def State.passWrite (s : State) (a : Addr) (data : Word) (lanes : Lanes) : State :=
  ({ s with host := { s.host with access := some .passWrite } }).claim .host ⟨true, a, lanes, data⟩

/-- R8, R70: a PLAIN write in IDLE: PASS, or HOLD with a promotion request where the hold condition holds. -/
def State.passOrHold (s : State) (c : HostCycle) (k : Classified) : State :=
  if s.holds c.addr then
    ((s.holdWrite ⟨c.addr, c.data, c.lanes, k.cls, k.entry, .holdCondition⟩).promoteIn .b0 c.addr).promoteIn .b1 c.addr
  else s.passWrite c.addr c.data c.lanes

/-- R8: a PLAIN write. -/
def State.routePlain (s : State) (c : HostCycle) (k : Classified) : State :=
  match s.txn.context with
  | .idle => s.passOrHold c k
  | .opened b => s.capture b c.addr c.data c.lanes
  | .slotWait => s.holdWrite ⟨c.addr, c.data, c.lanes, k.cls, k.entry, .bank⟩
  | .voided _ => s.countSilent

/-- R8: a JOURNALED write. -/
def State.routeJournaled (s : State) (c : HostCycle) (k : Classified) : State :=
  match s.txn.context with
  | .idle => s.refuse .unjournaled c.addr k
  | .opened b => s.capture b c.addr c.data c.lanes
  | .slotWait => s.holdWrite ⟨c.addr, c.data, c.lanes, k.cls, k.entry, .bank⟩
  | .voided _ => s.countSilent

/-- R8: a write by its class, the context not VOID. -/
def State.routeWrite (s : State) (c : HostCycle) (k : Classified) : State :=
  match k.cls with
  | .range => s.refuse .range c.addr k
  | .anchor => s.refuse .anchor c.addr k
  | .log => s.refuse .log c.addr k
  | .locked => s.refuseLocked c.addr k
  | .journaled => s.routeJournaled c k
  | .plain => s.routePlain c k

/-- R7, R8, R14: a write is taken. In VOID it is refused silently, whatever its class. -/
def State.takeWrite (s : State) (c : HostCycle) : State :=
  match s.txn.context with
  | .voided _ => s.countSilent
  | .idle => s.routeWrite c (s.classify c.addr)
  | .slotWait => s.routeWrite c (s.classify c.addr)
  | .opened _ => s.routeWrite c (s.classify c.addr)

/-! ## Routing a read (R17, R18, R66 to R68) -/

/-- The device drives HD with a word (R18). -/
def State.drive (s : State) (w : Word) : State := { s with host := { s.host with driven := some w } }

/-- R66, order 2: the committed banks, the one with the higher sequence number first. -/
def State.committedNewestFirst (s : State) : List Bank :=
  let two := if s.bank0.rank < s.bank1.rank then [s.bank1, s.bank0] else [s.bank0, s.bank1]
  two.filter fun k => k.state.committed

/-- R66, R67: the entries that can supply a lane of a word, newest first. -/
def State.sources (s : State) (a : Addr) : List Entry :=
  (match s.txn.context with
    | .opened b => ((s.bank b).lookup a).toList
    | .idle => []
    | .slotWait => []
    | .voided _ => [])
  ++ s.committedNewestFirst.filterMap fun k => (k.lookup a).filter fun e => !e.applied

/-- R66: the upper lane as the newest source that holds it gives it. -/
def upperFrom (es : List Entry) : Option Byte := (es.find? (·.lanes.upper)).map fun e => upperByte e.data

/-- R66: the lower lane as the newest source that holds it gives it. -/
def lowerFrom (es : List Entry) : Option Byte := (es.find? (·.lanes.lower)).map fun e => lowerByte e.data

/-- R66: the lanes a list of sources holds. -/
def lanesFrom (es : List Entry) : Lanes := ⟨(upperFrom es).isSome, (lowerFrom es).isSome⟩

/-- R66: the word of the lanes a list of sources holds, 00h on the others. -/
def wordFrom (es : List Entry) : Word := joinBytes ((upperFrom es).getD 0) ((lowerFrom es).getD 0)

/-- R18, R68: a read that needs memory claims it for the lanes it still needs. -/
def State.claimRead (s : State) (c : HostCycle) (found : Word) (need : Lanes) : State :=
  ({ s with host := { s.host with access := some (.read c.lanes found need) } }).claim .host ⟨false, c.addr, need, 0⟩

/-- R66 to R68: a forwarded read. -/
def State.forward (s : State) (c : HostCycle) : State :=
  let es := s.sources c.addr
  let found := maskLanes c.lanes (wordFrom es)
  let need := lanesWithout c.lanes (lanesFrom es)
  if noLane need then s.drive found else s.claimRead c found need

/-- R17: a read is taken. -/
def State.takeRead (s : State) (c : HostCycle) : State :=
  if s.memSize ≤ c.addr.toNat then (s.drive 0xFFFF).offerRefused .rangeRead c.addr none
  else if c.addr.toNat < Config.anchorArea || s.inLog c.addr then s.claimRead c 0 c.lanes
  else s.forward c

/-! ## Taking the cycle on the host bus (R1 to R3) -/

/-- R1: a cycle with no lane has no effect; a read of that kind drives 0000h. -/
def State.takeLaneless (s : State) (c : HostCycle) : State := if c.write then s else s.drive 0

/-- R2, R3: the host port takes the cycle the host presents. -/
def State.takeCycle (s : State) : State :=
  match recognised s.pins.host with
  | none => s
  | some c =>
    let t := { s with host := { s.host with cycleTaken := true } }
    if noLane c.lanes then t.takeLaneless c else if c.write then t.takeWrite c else t.takeRead c

/-- R2, R3: the host presents a cycle. It is taken at once, unless an access is in progress or the part state holds it
unclassified. -/
def State.presentCycle (s : State) (lines : HostLines) : State :=
  let t := { s with
    pins := { s.pins with host := lines }
    host := { s.host with cycleTaken := false, driven := none } }
  if t.hostBusy || !t.start.part.working then t else t.takeCycle

/-- R2, R3: a cycle waits on the bus that the port takes now: no access is in progress and the part state lets it. -/
def State.cycleReady (s : State) : Bool := s.cycleWaiting && !s.hostBusy && s.start.part.working

/-- R2, R135: the host port recognises the host's next cycle, which waits on the bus, in an event of its own after the access before
it has completed, and takes it as it takes one presented to it. DESIGN CHOICE, log entry 12: which command is that event. -/
def State.takeWaiting (s : State) : State := if s.cycleReady then s.takeCycle else s

/-! ## A bank becomes FREE, or the part enters RUN from FORMATTING -/

/-- R53: a bank enters CAPTURE: no entries, every other field absent. -/
def Bank.capturing : Bank := ⟨.capture, none, [], none, none⟩

/-- R22, R23: the context enters OPEN on a bank, which enters CAPTURE. The open timer is not touched. -/
def State.openOn (s : State) (b : BankId) : State :=
  { s.setBank b .capturing with txn := { s.txn with context := .opened b } }

/-- R23, R47: a write held awaiting a bank is captured into the bank given. -/
def State.captureHeld (s : State) (b : BankId) : State :=
  match s.slotAwaiting .bank with
  | some h => s.clearSlot.capture b h.addr h.data h.lanes
  | none => s

/-- R23: in RUN a context waiting in SLOT_WAIT takes the lower-numbered FREE bank, and a write held awaiting a bank is
captured into it. -/
def State.openWaiting (s : State) : State :=
  if s.start.part = .run ∧ s.txn.context = .slotWait then
    match s.freeBank with
    | some b => (s.openOn b).captureHeld b
    | none => s
  else s

/-- R71: a write held awaiting the hold condition is examined; if no committed bank holds its word, the hold ends and the
write claims the memory port. -/
def State.examineHold (s : State) : State :=
  match s.slotAwaiting .holdCondition with
  | some h =>
    if s.holds h.addr then s
    else
      ({ s with host := { s.host with
          slot := some { h with awaits := .port }
          holdTimer := { s.host.holdTimer with running := false } } }).claim .host ⟨true, h.addr, h.lanes, h.data⟩
  | none => s

/-! ## Expiries of the two timers -/

/-- R30: an expiry of the open timer can be taken: the controller takes events, the context is OPEN or SLOT_WAIT, the timer
runs and the open limit is not 0. -/
def State.openTimerArmed (s : State) : Bool :=
  s.start.part.working && s.txn.openTimer.running && decide (s.mgmt.config.openLimit ≠ 0)
    && (match s.txn.context with
      | .opened _ => true
      | .slotWait => true
      | .idle => false
      | .voided _ => false)

/-- The microseconds until the open timer reaches the open limit; 0 when it has (R29). -/
def State.openTimeLeft (s : State) : Nat :=
  s.mgmt.config.openLimit.toNat * 1000 - (s.txn.openTimer.millis * 1000 + s.txn.openTimer.micros)

/-- R75: an expiry of the hold timer can be taken: a write is held, the timer runs and the hold limit is not 0. -/
def State.holdTimerArmed (s : State) : Bool :=
  s.start.part.working && s.host.holdTimer.running && decide (s.mgmt.config.holdLimit ≠ 0)

/-- The microseconds until the hold timer reaches the hold limit; 0 when it has (R75). -/
def State.holdTimeLeft (s : State) : Nat := s.mgmt.config.holdLimit.toNat - s.host.holdTimer.micros

/-- R28, R76: the held write is refused with HOLD_EXPIRED; a write held awaiting a bank gives the hold-expiry notice too. -/
def State.expireHold (s : State) : State :=
  match s.host.slot with
  | some h =>
    let t := s.clearSlot.offerRefused .holdExpired h.addr h.entry
    match h.awaits with
    | .holdCondition => t
    | .bank => t.voidTxn .noSlot
    | .port => s
  | none => s

end Sys2Proof.Machine
end

