-- ==== Sys2Proof/Machine/AnchorOps.lean ====
section
/-! DEFINITION. Machine/AnchorOps.lean: the anchor writer's requests, starts and completions (R120 to R129), and the
hand-over at the end of a start-up (R159), which a completion can bring about. -/

namespace Sys2Proof.Machine

/-! ## Starting a write (R120, R121) -/

/-- The other copy. -/
def Copy.other : Copy → Copy
  | .a => .b
  | .b => .a

/-- R114: the memory word of copy word 0. -/
def Copy.base : Copy → Nat
  | .a => 0
  | .b => Config.copyWords

/-- R121: the copy the next write targets. -/
def AnchorWriter.nextTarget (w : AnchorWriter) : Copy :=
  match w.lastCopy with
  | some c => c.other
  | none => .a

/-- R121: the command the next write carries. -/
def AnchorWriter.nextCarried (w : AnchorWriter) : Option Carried :=
  if w.format.isSome then some .format else if w.guardsDue then some .applyGuards else none

/-- R107, R121: the record of a write that starts now. -/
def State.nextWrite (s : State) : AnchorWrite :=
  { target := s.anchor.nextTarget
    generation := s.anchor.generation + 1
    snapshot := copySnapshot s.anchor.image (s.anchor.generation + 1)
    completed := 0
    covers0 := s.bank0.state == .retiring
    covers1 := s.bank1.state == .retiring
    carried := s.anchor.nextCarried }

/-- R120, R121: a write starts; the pending flag is cleared. -/
def State.startWrite (s : State) : State :=
  { s with anchor := { s.anchor with write := some s.nextWrite, pending := false, guardsDue := false } }

/-- R120: a request for an anchor write. -/
def State.requestWrite (s : State) : State :=
  if s.anchor.write.isNone then s.startWrite else { s with anchor := { s.anchor with pending := true } }

/-! ## The end of a start-up (R159) -/

/-- R40: the context the level of TXN gives at the end of a start-up. -/
def contextAtStart (txnHigh : Bool) : Context := if txnHigh then .voided .reset else .idle

/-- R40, R159, R168: HRST# is released, TXN is sampled and the guard edit table is loaded, in the part state entered. -/
def State.handOver (s : State) (part : PartState) : State :=
  { s with
    start := { s.start with part := part, phase := .done, drivesHrst := false }
    txn := { s.txn with context := contextAtStart s.pins.txnHigh, openTimer := .stopped }
    mgmt := { s.mgmt with edit := s.host.guards } }

/-- R159: the part enters RUN or UNFORMATTED; a cycle held unclassified through the start-up is then taken. -/
def State.endStartup (s : State) (part : PartState) : State :=
  if s.cycleWaiting && !s.hostBusy then (s.handOver part).takeCycle else s.handOver part

/-! ## Completing a write (R123) -/

/-- R108: a covered bank is retired: used words falls by its image size and the bank is emptied. -/
def State.retireBank (s : State) (b : BankId) : State :=
  if (s.bank b).state = .retiring then
    { s.setBank b .empty with
      log := { s.log with used := s.log.used - (match (s.bank b).image with | some i => i.size | none => 0) } }
  else s

/-- R108: the banks of the covered set are retired. -/
def State.retireCovered (s : State) (w : AnchorWrite) : State :=
  let t := if w.covers0 then s.retireBank .b0 else s
  if w.covers1 then t.retireBank .b1 else t

/-- R123, steps 1, 3 and 5: the durable generation and the last-written copy, the live guard table, the writer IDLE. -/
def State.writeDone (s : State) (w : AnchorWrite) : State :=
  { s with
    anchor := { s.anchor with generation := w.generation, lastCopy := some w.target, write := none }
    host := { s.host with guards := copyGuards w.snapshot } }

/-- R172: the command in progress is reported DONE. -/
def State.statusDone (s : State) : State :=
  { s with mgmt := { s.mgmt with status := { s.mgmt.status with status := .done, reason := none } } }

/-- R129: the FORMAT completes. -/
def State.finishFormat (s : State) : State :=
  ({ s with
    log := { s.log with head := 0, used := 0 }
    txn := { s.txn with nextSeq := s.anchor.image.tailSeq }
    anchor := { s.anchor with format := none }
    start := { s.start with part := .run } }).statusDone

/-- R123, step 4, for a FORMAT: the first write makes the second due, the second completes the FORMAT. -/
def State.formatWriteDone (s : State) : State :=
  match s.anchor.format with
  | some j =>
    match j.phase with
    | .secondWrite => s.finishFormat
    | .clearing => s
    | .firstWrite => { s with anchor := { s.anchor with format := some { j with phase := .secondDue } } }
    | .secondDue => s
  | none => s

/-- R123, step 4: the carried command. -/
def State.carriedDone (s : State) (w : AnchorWrite) : State :=
  match w.carried with
  | some .applyGuards => s.statusDone
  | some .format => s.formatWriteDone
  | none => s

/-- R154: in RECOVERY the closing write has completed and the part enters RUN. -/
def State.closingDone (s : State) : State := if s.start.part = .recovery then s.endStartup .run else s

/-- R123: word 63 has completed: the write completes, and the neighbours take what it frees (R23, R71, R154). -/
def State.completeWrite (s : State) (w : AnchorWrite) : State :=
  ((((s.writeDone w).retireCovered w).carriedDone w).openWaiting.examineHold).closingDone

end Sys2Proof.Machine
end

