-- ==== Sys2Proof/Machine/StartupOps.lean ====
section
/-! DEFINITION. Machine/StartupOps.lean: what a reset does to every block (R145), the end of the anchor reads (R148, R149), and
the tests, the replay and the stop of the log scan (R150 to R154). -/

namespace Sys2Proof.Machine

/-! ## Resets -/

/-- R141: a write that a reset interrupts leaves each lane of its lane set at a value nothing fixes. -/
def tornWrite (m : Memory) (x : Access) (n : Nat) : Memory :=
  writeLanes m x.addr x.lanes (joinBytes (Config.tornByte (n + 1)) (Config.tornByte n))

/-- R140, R141: a halt has let the access in flight run to its end, unless it is the supply itself that fails. -/
def State.flightEnds (s : State) (cause : ResetCause) : Bool :=
  s.start.part == .halted && cause != .powerOn

/-- R141: the memory as a reset leaves it. -/
def State.memoryAtReset (s : State) (cause : ResetCause) : Memory :=
  match s.port.inFlight with
  | some f =>
    if !f.access.write then s.mem
    else if s.flightEnds cause then writeLanes s.mem f.access.addr f.access.lanes f.access.data
    else tornWrite s.mem f.access s.torn
  | none => s.mem

/-- R145: the resets-since-power-on count after a reset. -/
def resetsAfter (cause : ResetCause) (n : Nat) : Nat := if cause = .powerOn then 0 else min 255 (n + 1)

/-- R175, R178, R179: the management port after a reset. -/
def ManagementPort.afterReset (m : ManagementPort) (cause : ResetCause) (adr : BitVec 2) : ManagementPort :=
  if cause = .powerOn then .reset adr [] 0 ⟨0, 0, 0⟩ else .reset adr m.queue m.dropped m.counters

/-- R145: a reset: every block at its values after reset, MSZ[1:0] and ADR[1:0] sampled at the levels given. -/
def State.resetBy (s : State) (cause : ResetCause) (straps : Straps) : State :=
  { host := .reset
    txn := .reset
    bank0 := .empty
    bank1 := .empty
    log := .reset
    apply := .reset
    anchor := .reset
    port := .reset straps.msz
    start := .reset cause (resetsAfter cause s.start.report.resets)
    mgmt := s.mgmt.afterReset cause straps.adr
    pins := { s.pins with straps := straps }
    mem := s.memoryAtReset cause
    torn := s.torn + 2
    pending := s.pending }

/-! ## The end of the scan (R152 to R154) -/

/-- R152: a partial image is discarded: its record is offered and the report says so. -/
def State.discardPartial (s : State) : State :=
  { s.offer ⟨.partialImageDiscarded, none, some (BitVec.ofNat 20 (s.anchor.image.logBase + s.start.scan.position)),
      some s.start.scan.expected, none, s.start.clock.millis⟩ with
    start := { s.start with report := { s.start.report with partialImage := true } } }

/-- R153: the head, the tail, the sequence numbers and the report take the stop point and the sequence expected there. -/
def State.settleScan (s : State) : State :=
  let p := s.start.scan.position
  let q := s.start.scan.expected
  { s with
    log := { s.log with head := p, used := 0 }
    anchor := { s.anchor with image := { s.anchor.image with tail := p, tailSeq := q } }
    txn := { s.txn with nextSeq := q }
    start := { s.start with report := { s.start.report with head := p, nextSeq := q } } }

/-- R153: a closing write is needed. -/
def StartupReport.needsClosing (r : StartupReport) : Bool := decide (0 < r.replayed) || decide (r.copiesInvalid = 1)

/-- R153: the scan ends: a closing write is requested where one is needed, and otherwise the part enters RUN. -/
def State.endScan (s : State) : State :=
  let t := s.settleScan
  if t.start.report.needsClosing then
    ({ t with start := { t.start with phase := .closing } }).requestWrite
  else t.endStartup .run

/-- R152, R153: the scan stops; `discard` says whether a partial image is recognised at the stop point. -/
def State.stopScan (s : State) (discard : Bool) : State := if discard then s.discardPartial.endScan else s.endScan

/-- R150: the scan turns to a new position; it stops at once where the expected sequence is 0. -/
def State.scanHere (s : State) : State :=
  let t := { s with start := { s.start with phase := .scan 0 0 0 } }
  if s.start.scan.expected = 0 then t.stopScan false else t

/-! ## The end of the anchor reads (R148, R149) -/

/-- R148, R149: the ANCHOR_COPY_INVALID record of a copy that fails is offered. -/
def State.offerCopy (s : State) (c : Copy) (failure : Option Reason) : State :=
  match failure with
  | some r => s.offer ⟨.anchorCopyInvalid, some r, some (BitVec.ofNat 20 c.base), none, none, s.start.clock.millis⟩
  | none => s

/-- The number of copies that fail (R148). -/
def failures (a b : Option Reason) : Nat := (if a.isSome then 1 else 0) + (if b.isSome then 1 else 0)

/-- R148, steps 1, 2, 4 and 5: the newest valid copy is loaded and the part enters RECOVERY. -/
def State.loadCopy (s : State) (c : Copy) (copy : List Word) (invalid : Nat) : State :=
  { s with
    anchor := { s.anchor with image := copyImage copy, generation := copyGeneration copy, lastCopy := some c }
    host := { s.host with guards := copyGuards copy }
    start := { s.start with
      part := .recovery
      report := { s.start.report with copyUsed := some c, copiesInvalid := invalid }
      scan := ⟨(copyImage copy).tail, (copyImage copy).tailSeq, 0, crcInit⟩ } }

/-- R149, step 2: the report of a start-up that finds no valid copy. -/
def State.reportUnformatted (s : State) : State :=
  { s with start := { s.start with report := { s.start.report with
      copyUsed := none, copiesInvalid := 2, replayed := 0, partialImage := false, head := 0, nextSeq := 1 } } }

/-- R148, R149: the anchor reads have ended with PFW# high, and the words of copies A and B are these. -/
def State.chooseAnchor (s : State) (a b : List Word) : State :=
  let fa := copyFailure s.memSize a
  let fb := copyFailure s.memSize b
  let t := (s.offerCopy .a fa).offerCopy .b fb
  match newestCopy s.memSize a b with
  | some .a => (t.loadCopy .a a (failures fa fb)).scanHere
  | some .b => (t.loadCopy .b b (failures fa fb)).scanHere
  | none => t.reportUnformatted.endStartup .unformatted

/-- R148: the anchor reads have ended: with PFW# low the part enters HALTED and loads nothing. -/
def State.endAnchorReads (s : State) (words : List Word) : State :=
  if s.pins.pfwHigh then s.chooseAnchor (words.take Config.copyWords) (words.drop Config.copyWords)
  else ({ s with start := { s.start with phase := .done } }).enterHalted

/-! ## The tests of the scan (R150) -/

/-- R150: where image word `word` stands in an image of `count` entries. -/
inductive ImagePlace where
  | begin (i : Nat)
  | entry (i : Nat)
  | commit (i : Nat)
  deriving DecidableEq, Repr

/-- R82: the record an image word belongs to, and its word there. -/
def imagePlace (word count : Nat) : ImagePlace :=
  if word < 4 then .begin word
  else if word < 4 + 3 * count then .entry ((word - 4) % 3)
  else .commit (word - 4 - 3 * count)

/-- R150: BEGIN word 3: the count is 1 to 256 and the image keeps the images found within the log size. -/
def State.countFits (s : State) (w : Word) : Bool :=
  decide (1 ≤ w.toNat) && decide (w.toNat ≤ Config.bankCapacity)
    && decide (s.start.scan.scanned + imageSize w.toNat ≤ s.anchor.image.logSize)

/-- R150: the address of an ENTRY is below the memory size, outside the anchor area and outside the loaded log region. -/
def State.entryAddrOk (s : State) (a : Addr) : Bool :=
  decide (a.toNat < s.memSize) && decide (Config.anchorArea ≤ a.toNat) && !s.imageRegion.contains a

/-- R150: the test an image word must pass; `head` is the first word of the ENTRY the word belongs to. -/
def State.scanTest (s : State) (place : ImagePlace) (head w : Word) : Bool :=
  match place with
  | .begin i =>
    if i = 0 then recordKind w == 0xA
    else if i = 1 then w == highHalf s.start.scan.expected
    else if i = 2 then w == lowHalf s.start.scan.expected
    else s.countFits w
  | .entry i =>
    if i = 0 then recordKind w == 0x5 && !noLane (recordLanes w)
    else if i = 1 then s.entryAddrOk (joinAddr head w)
    else true
  | .commit i =>
    if i = 0 then recordKind w == 0xC
    else if i = 1 then w == highHalf s.start.scan.expected
    else if i = 2 then w == lowHalf s.start.scan.expected
    else w == s.start.scan.crc

/-- R150: the scan CRC after a word: FFFFh before BEGIN word 0, and each BEGIN and ENTRY word taken in. -/
def scanCrc (crc : Word) (place : ImagePlace) (w : Word) : Word :=
  match place with
  | .begin i => if i = 0 then crcWord crcInit w else crcWord crc w
  | .entry _ => crcWord crc w
  | .commit _ => crc

/-- R150, R151: the scan's place after a word that passed. An image whose COMMIT word 3 passes is complete and is replayed. -/
def scanNext (place : ImagePlace) (word count : Nat) (head w : Word) : StartupPhase :=
  match place with
  | .begin i => if i = 3 then .scan (word + 1) w.toNat head else .scan (word + 1) count head
  | .entry i => if i = 0 then .scan (word + 1) count w else .scan (word + 1) count head
  | .commit i => if i = 3 then .replay count 0 [] else .scan (word + 1) count head

/-- R152: a failure after BEGIN words 0 to 2 passed marks a partial image. -/
def failureDiscards (word : Nat) : Bool := decide (3 ≤ word)

/-- R150: the scan CRC with a word taken in, as the word is read, whether or not it passes its test. -/
def State.takenInScan (s : State) (place : ImagePlace) (w : Word) : State :=
  { s with start := { s.start with scan := { s.start.scan with crc := scanCrc s.start.scan.crc place w } } }

/-- R150, R152: one word the scan has read. -/
def State.scanWord (s : State) (word count : Nat) (head w : Word) : State :=
  let place := imagePlace word count
  let t := s.takenInScan place w
  if s.scanTest place head w then { t with start := { t.start with phase := scanNext place word count head w } }
  else t.stopScan (failureDiscards word)

/-! ## Replay (R151) -/

/-- R151: the image's last replay write has completed: the report, the words scanned, the position and the expected sequence. -/
def State.imageReplayed (s : State) (count : Nat) : State :=
  { s with start := { s.start with
      report := { s.start.report with replayed := min 65535 (s.start.report.replayed + 1) }
      scan := { s.start.scan with
        scanned := s.start.scan.scanned + imageSize count
        position := (s.start.scan.position + imageSize count) % s.anchor.image.logSize
        expected := s.start.scan.expected + 1 } } }

/-- R151: one replay write has completed. -/
def State.replayedEntry (s : State) (count entry : Nat) : State :=
  if entry + 1 < count then { s with start := { s.start with phase := .replay count (entry + 1) [] } }
  else (s.imageReplayed count).scanHere

/-! ## The start-up controller's claims (R139, R147, R150, R151) -/

/-- The memory word of log offset o (R80). -/
def State.logWord (s : State) (o : Nat) : Addr := BitVec.ofNat 20 (s.anchor.image.logBase + o % s.anchor.image.logSize)

/-- The claim of one word read with both lanes. -/
def readClaim (a : Addr) : Access := ⟨false, a, bothLanes, 0⟩

/-- R151: the replay write of an ENTRY record. -/
def replayWrite (record : List Word) : Access :=
  ⟨true, joinAddr (record.getD 0 0) (record.getD 1 0), recordLanes (record.getD 0 0), record.getD 2 0⟩

/-- The next claim of the start-up controller's work. -/
def State.startupClaim (s : State) : Option Access :=
  match s.start.phase with
  | .anchors words =>
    if words.length < Config.anchorArea then some (readClaim (BitVec.ofNat 20 words.length)) else none
  | .scan word _ _ => some (readClaim (s.logWord (s.start.scan.position + word)))
  | .replay _ entry record =>
    if record.length < 3 then some (readClaim (s.logWord (s.start.scan.position + 4 + 3 * entry + record.length)))
    else some (replayWrite record)
  | .closing => none
  | .done => none

/-- R139, R144, R147: the part states in which the start-up controller claims: STARTUP with RST# high, and RECOVERY. -/
def State.startupWorks (s : State) : Bool :=
  (s.start.part == .startup && s.pins.rstHigh) || s.start.part == .recovery

end Sys2Proof.Machine
end

