-- ==== Sys2Proof/Machine/PortAccess.lean ====
section
/-! DEFINITION. Machine/PortAccess.lean: the commands of the memory port and arbiter: MEMORY_CLAIM and GRANT. -/

namespace Sys2Proof.Machine

/-! ## Claims (R135) -/

/-- R92: a bank's image word j as the log writer claims it, and the memory word it goes to. -/
def State.imageClaim (s : State) (j : LogJob) : Access :=
  let k := s.bank j.bank
  ⟨true, s.logWord ((match k.image with | some i => i.start | none => 0) + j.words), bothLanes,
    imageWord (k.seq.getD 0) k.entries s.log.crc j.words⟩

/-- R86: the running CRC after the claim of an image word: BEGIN and ENTRY words are taken into it. -/
def State.crcAfterClaim (s : State) (j : LogJob) : Word :=
  if j.words < 3 * (s.bank j.bank).entries.length + 4 then crcWord s.log.crc (s.imageClaim j).data else s.log.crc

/-- R92: the log writer claims its next image word. It works in RUN (R98). -/
def State.claimLog (s : State) : State :=
  match s.log.job with
  | some j =>
    if s.start.part = .run then
      ({ s with log := { s.log with crc := s.crcAfterClaim j } }).claim .log (s.imageClaim j)
    else s
  | none => s

/-- R120: the part states in which the anchor writer works. -/
def PartState.anchorWorks : PartState → Bool
  | .run => true
  | .formatting => true
  | .recovery => true
  | .startup => false
  | .unformatted => false
  | .halted => false

/-- R122: the claim of the next word of an anchor write. -/
def AnchorWrite.nextClaim (w : AnchorWrite) : Access :=
  ⟨true, BitVec.ofNat 20 (w.target.base + w.completed), bothLanes, w.snapshot.getD w.completed 0⟩

/-- R122: the anchor writer claims its next word. -/
def State.claimAnchor (s : State) : State :=
  match s.anchor.write with
  | some w => if s.start.part.anchorWorks then s.claim .anchor w.nextClaim else s
  | none => s

/-- R139: the start-up controller claims its next word. -/
def State.claimStartup (s : State) : State :=
  match s.startupClaim with
  | some x => if s.startupWorks then s.claim .startup x else s
  | none => s

/-- R135: a claimant makes its next claim. The host port claims as its access is taken or its hold ends (R9, R68, R71): what is left
for it is to take the cycle that waits on the bus (R2), with the claim that take makes. The apply engine claims at its choice
(R102), and has none left to make here. -/
def State.nextClaim (s : State) (who : Claimant) : State :=
  if s.canClaim who then
    match who with
    | .log => s.claimLog
    | .anchor => s.claimAnchor
    | .startup => s.claimStartup
    | .host => s.takeWaiting
    | .apply => s
  else s

/-- MEMORY_CLAIM (R2, R135, R86, R92, R122, R139, R147). -/
def execMemoryClaim (who : Claimant) (s : State) : Host.Outcome State Fault Refusal := .next (s.nextClaim who)

/-! ## Grants (R136 to R138) -/

/-- R137: the highest-ranked engine with a claim waiting. -/
def Claims.engine (c : Claims) : Option Claimant :=
  if c.anchor.isSome then some .anchor
  else if c.log.isSome then some .log
  else if c.apply.isSome then some .apply
  else none

/-- R137, R139: the claimant a grant goes to. -/
def State.grantee (s : State) : Option Claimant :=
  let c := s.port.waiting
  if c.startup.isSome then some .startup
  else if c.host.isSome && (c.engine.isNone || decide (s.port.burst < s.mgmt.config.burstLimit)) then some .host
  else c.engine

/-- R138: the host burst count after a grant. -/
def State.burstAfter (s : State) (who : Claimant) : Nat :=
  if who = .host ∧ s.port.waiting.engine.isSome then s.port.burst + 1 else 0

/-- R136: the claim leaves the waiting claims and its access is in flight. -/
def State.granted (s : State) (who : Claimant) (x : Access) : State :=
  { s with port := { s.port with
      inFlight := some ⟨who, x⟩
      waiting := s.port.waiting.set who none
      burst := s.burstAfter who
      lastAddr := x.addr } }

/-- R136: the claim a grant would choose now: the port IDLE, the halt flag clear, a claim waiting. -/
def State.grantable (s : State) : Option InFlight :=
  if s.port.inFlight.isSome || s.port.halt then none
  else
    match s.grantee with
    | some who => (s.port.waiting.get who).map fun x => ⟨who, x⟩
    | none => none

/-- GRANT (R136 to R138). A claim for a word the memory does not have, which R134 excludes, faults. -/
def execGrant (s : State) : Host.Outcome State Fault Refusal :=
  match s.grantable with
  | some f => if f.access.addr.toNat < s.memSize then .next (s.granted f.who f.access) else .fault .absentWord
  | none => .next s

end Sys2Proof.Machine
end

