-- ==== Sys2Proof/Machine/AnchorWrites.lean ====
section
/-! DEFINITION. Machine/AnchorWrites.lean: the events of the anchor writer: PENDING_WRITE_START, ANCHOR_WORD_COMPLETION,
FORMAT_CLEAR_COMPLETION, FORMAT_SECOND_WRITE_START. -/

namespace Sys2Proof.Machine

/-- R120: the pending write starts as the anchor writer's next event, serving every request that set the flag. -/
def State.pendingStart (s : State) : State :=
  if s.start.part.anchorWorks ∧ s.anchor.pending ∧ s.anchor.write = none then s.startWrite else s

/-- PENDING_WRITE_START (R120, R121). -/
def execPendingWriteStart (s : State) : Host.Outcome State Fault Refusal := .next s.pendingStart

/-- R122: words completed counts a completion. -/
def State.countWord (s : State) (w : AnchorWrite) : State :=
  { s with anchor := { s.anchor with write := some { w with completed := w.completed + 1 } } }

/-- R122, R123: a word of the write in flight has completed; word 63 completes the write. -/
def State.anchorWordDone (s : State) (w : AnchorWrite) : State :=
  if w.completed + 1 = Config.copyWords then s.completeWrite w else s.countWord w

/-- R122, R124: the memory port completes a word of the anchor write in flight. In HALTED words completed does not advance. -/
def State.anchorCompletion (s : State) : State :=
  match s.flightOf .anchor, s.anchor.write with
  | some x, some w => if s.start.part.anchorWorks then (s.landed x).anchorWordDone w else s.landed x
  | some _, none => s
  | none, _ => s

/-- ANCHOR_WORD_COMPLETION (R122 to R124, R129, R154). -/
def execAnchorWordCompletion (s : State) : Host.Outcome State Fault Refusal := .next s.anchorCompletion

/-- R128: the tail sequence of the new image: the next sequence number, or 1 where the part was UNFORMATTED at acceptance or
the next sequence number is 0. -/
def formatTailSeq (j : FormatJob) (nextSeq : DWord) : DWord :=
  if j.former = none ∨ nextSeq = 0 then 1 else nextSeq

/-- R128: the new image. -/
def State.formatImage (s : State) (j : FormatJob) : AnchorImage :=
  { logBase := j.region.base, logSize := j.region.size, tail := 0, tailSeq := formatTailSeq j s.txn.nextSeq,
    guards := if j.former = none then noGuards else s.host.guards }

/-- R128: the clear has completed: the new image is built and the first anchor write of the FORMAT starts. -/
def State.formatCleared (s : State) (j : FormatJob) : State :=
  ({ s with anchor := { s.anchor with image := s.formatImage j, format := some { j with phase := .firstWrite } } }).startWrite

/-- The FORMAT whose clear write is being made, the anchor writer having no write in flight (R127). -/
def AnchorWriter.clearing (w : AnchorWriter) : Option FormatJob :=
  match w.format with
  | some j => if j.phase = .clearing ∧ w.write = none then some j else none
  | none => none

/-- R128, R130: the memory port completes the clear write. In HALTED the FORMAT goes no further. -/
def State.clearCompletion (s : State) : State :=
  match s.flightOf .anchor, s.anchor.clearing with
  | some x, some j => if s.start.part = .formatting then (s.landed x).formatCleared j else s.landed x
  | some _, none => s
  | none, _ => s

/-- FORMAT_CLEAR_COMPLETION (R128). -/
def execFormatClearCompletion (s : State) : Host.Outcome State Fault Refusal := .next s.clearCompletion

/-- R128: the second write of the FORMAT starts, to the other copy, its generation one higher. -/
def State.secondStart (s : State) : State :=
  match s.anchor.format with
  | some j =>
    if s.start.part = .formatting ∧ j.phase = .secondDue ∧ s.anchor.write = none then
      ({ s with anchor := { s.anchor with format := some { j with phase := .secondWrite } } }).startWrite
    else s
  | none => s

/-- FORMAT_SECOND_WRITE_START (R128). -/
def execFormatSecondWriteStart (s : State) : Host.Outcome State Fault Refusal := .next s.secondStart

end Sys2Proof.Machine
end

