-- ==== Sys2Proof/Machine/Applying.lean ====
section
/-! DEFINITION. Machine/Applying.lean: the commands of the apply engine: APPLY_TAKE, APPLY_CHOICE, HOME_WRITE_COMPLETION. -/

namespace Sys2Proof.Machine

/-- R59, R101: the other bank is not in APPLY_WAIT or APPLYING with a lower sequence number. -/
def State.noOlderToApply (s : State) (b : BankId) : Bool :=
  let o := s.bank b.other
  !((o.state == .applyWait || o.state == .applying) && decide (o.rank < (s.bank b).rank))

/-- R73: the request made for a write held awaiting the hold condition as a bank enters APPLYING. -/
def State.promoteHeld (s : State) (b : BankId) : State :=
  match s.slotAwaiting .holdCondition with
  | some h => s.promoteIn b h.addr
  | none => s

/-- R101: the apply engine takes a bank. -/
def State.takeForApply (s : State) (b : BankId) : State :=
  { s.setBank b { s.bank b with state := .applying, target := none } with apply := ⟨some b, none⟩ }

/-- R101: the IDLE apply engine examines the banks in APPLY_WAIT. -/
def State.applyTake (s : State) : State :=
  if s.start.part = .run ∧ s.apply.bank = none then
    match s.oldestIn .applyWait with
    | some b => if s.noOlderToApply b then (s.takeForApply b).promoteHeld b else s
    | none => s
  else s

/-- APPLY_TAKE (R101, R73). -/
def execApplyTake (s : State) : Host.Outcome State Fault Refusal := .next s.applyTake

/-- R102: the position chosen: the promotion target, or else the lowest unapplied. -/
def Bank.choice (k : Bank) : Option Nat :=
  match k.target with
  | some i => some i
  | none => k.entries.findIdx? fun e => !e.applied

/-- R103: the home write of an entry. -/
def Entry.homeWrite (e : Entry) : Access := ⟨true, e.addr, e.lanes, e.data⟩

/-- R102, R103: a position of the current bank is chosen and its home write claimed. -/
def State.chooseEntry (s : State) (i : Nat) (e : Entry) : State :=
  ({ s with apply := { s.apply with inFlight := some i } }).claim .apply e.homeWrite

/-- R102: the apply engine chooses the next entry of its current bank. -/
def State.applyChoice (s : State) : State :=
  match s.apply.bank with
  | some b =>
    if s.start.part = .run ∧ s.apply.inFlight = none ∧ s.canClaim .apply then
      match (s.bank b).choice with
      | some i =>
        match (s.bank b).entries[i]? with
        | some e => s.chooseEntry i e
        | none => s
      | none => s
    else s
  | none => s

/-- APPLY_CHOICE (R102, R103). -/
def execApplyChoice (s : State) : Host.Outcome State Fault Refusal := .next s.applyChoice

/-- R60: an entry is applied. -/
def applyAt (es : List Entry) (i : Nat) : List Entry := es.modify i fun e => { e with applied := true }

/-- R60, R104: the entry of the completed home write is applied; a target on it becomes absent. -/
def Bank.entryApplied (k : Bank) (i : Nat) : Bank :=
  { k with entries := applyAt k.entries i, target := if k.target = some i then none else k.target }

/-- R81: the image end of a bank's image. -/
def State.imageEnd (s : State) (k : Bank) : Nat :=
  match k.image with
  | some i => (i.start + i.size) % s.anchor.image.logSize
  | none => s.anchor.image.tail

/-- R105: the bank enters RETIRING, the tail of the in-part image advances past its image, and an anchor write is requested. -/
def State.retire (s : State) (b : BankId) : State :=
  let k := s.bank b
  ({ s.setBank b { k with state := .retiring, target := none } with
    anchor := { s.anchor with image := { s.anchor.image with tail := s.imageEnd k, tailSeq := k.seq.getD 0 + 1 } }
    apply := ⟨none, none⟩ }).requestWrite

/-- R104: the home write of position i of the current bank has completed. -/
def State.homeWriteDone (s : State) (b : BankId) (i : Nat) : State :=
  let k := (s.bank b).entryApplied i
  let t := { s.setBank b k with apply := { s.apply with inFlight := none } }
  if k.appliedCount = k.entries.length then t.retire b else t

/-- R104, R110: the memory port completes a home write. In HALTED no applied flag is set. -/
def State.homeCompletion (s : State) : State :=
  match s.flightOf .apply with
  | some x =>
    match s.apply.bank, s.apply.inFlight with
    | some b, some i => if s.start.part = .run then (s.landed x).homeWriteDone b i else s.landed x
    | some _, none => s.landed x
    | none, _ => s.landed x
  | none => s

/-- HOME_WRITE_COMPLETION (R104, R105, R110). -/
def execHomeWriteCompletion (s : State) : Host.Outcome State Fault Refusal := .next s.homeCompletion

end Sys2Proof.Machine
end

