-- ==== Sys2Proof/Machine/Transactions.lean ====
section
/-! DEFINITION. Machine/Transactions.lean: the commands of the transaction controller: TXN_RISE, RELEASE, ABT_RISE,
OPEN_TIMER_EXPIRY. -/

namespace Sys2Proof.Machine

/-! ## TXN rises (R22) -/

/-- R22, steps 1 and 2: TERR goes low and the open timer starts from 0. -/
def State.riseBegins (s : State) : State :=
  { s with txn := { s.txn with terr := false, openTimer := ⟨0, 0, true⟩ } }

/-- R22, step 3: the context takes its new state from the part state and the banks. -/
def State.riseContext (s : State) : State :=
  match s.start.part with
  | .run =>
    match s.freeBank with
    | some b => s.openOn b
    | none => { s with txn := { s.txn with context := .slotWait } }
  | .formatting => { s with txn := { s.txn with context := .slotWait } }
  | .unformatted => { s with txn := { s.txn with context := .voided .unformatted, openTimer := .stopped } }
  | .startup => s
  | .recovery => s
  | .halted => s

/-- R16, R22: the HOST_RESET notice a refusal pulse in progress holds is taken. -/
def State.pulseNotice (s : State) : State := if s.host.pulse.isSome then s.voidTxn .hostReset else s

/-- R21, R22: a rise of TXN. In STARTUP, RECOVERY and HALTED only the level of the line changes. -/
def State.rise (s : State) : State :=
  let t := { s with pins := { s.pins with txnHigh := true } }
  if t.start.part.working ∧ t.txn.context = .idle then t.riseBegins.riseContext.pulseNotice else t

/-- TXN_RISE (R22). -/
def execTxnRise (s : State) : Host.Outcome State Fault Refusal := .next s.rise

/-! ## The release (R31 to R36) -/

/-- The reason codes of the void reasons (R34, R166). -/
def VoidReason.reason : VoidReason → Reason
  | .unformatted => .unformatted
  | .aborted => .aborted
  | .expired => .expired
  | .overflow => .overflow
  | .refusedWrite => .refusedWrite
  | .hostReset => .hostReset
  | .noSlot => .noSlot
  | .reset => .reset

/-- R31, R33 to R35: the context returns to IDLE, the timer stops at 0, the refused-write count is set to 0 and the outcome
record is written whole. -/
def State.conclude (s : State) (r : OutcomeRecord) : State :=
  { s with txn := { s.txn with context := .idle, openTimer := .stopped, refused := 0, outcome := r } }

/-- R36: TERR goes high, a TRANSACTION_FAILED record is offered and the counter counts. -/
def State.reportFailure (s : State) (reason : Reason) : State :=
  let t := s.offer ⟨.transactionFailed, some reason, none, none, none, s.start.clock.millis⟩
  { t with
    txn := { t.txn with terr := true }
    mgmt := { t.mgmt with counters := { t.mgmt.counters with failed := countOnce t.mgmt.counters.failed } } }

/-- R35, R36: a release answered FAILED. -/
def State.failRelease (s : State) (reason : Reason) (entries refused : Nat) : State :=
  (s.conclude ⟨.failed, some reason, none, some entries, some refused⟩).reportFailure reason

/-- R33, R35: a release answered EMPTY. -/
def State.emptyRelease (s : State) : State := s.conclude ⟨.empty, none, none, some 0, some 0⟩

/-- R32: the group of a bank is accepted. -/
def State.accept (s : State) (b : BankId) : State :=
  let q := s.txn.nextSeq
  let k := s.bank b
  let t := (s.setBank b { k with state := .logWait, seq := some q }).conclude
    ⟨.accepted, none, some q, some k.entries.length, some 0⟩
  { t with
    txn := { t.txn with nextSeq := q + 1 }
    mgmt := { t.mgmt with counters := { t.mgmt.counters with accepted := countOnce t.mgmt.counters.accepted } } }

/-- R31: a release in OPEN: the checks in order. -/
def State.releaseOpen (s : State) (b : BankId) : State :=
  let n := (s.bank b).entries.length
  if n = 0 then (s.setBank b .empty).emptyRelease
  else if s.anchor.image.logSize < imageSize n then (s.setBank b .empty).failRelease .logTooSmall n 0
  else if s.txn.nextSeq = 0 then (s.setBank b .empty).failRelease .sequenceEnd n 0
  else s.accept b

/-- R33: a release in SLOT_WAIT: a write held awaiting a bank is refused NO_SLOT, its record before the release's. -/
def State.releaseWaiting (s : State) : State :=
  match s.slotAwaiting .bank with
  | some h => (s.clearSlot.offerRefused .noSlot h.addr h.entry).failRelease .noSlot 0 0
  | none => s.emptyRelease

/-- R31, R33, R34: a release decided by the context. -/
def State.releaseTaken (s : State) : State :=
  match s.txn.context with
  | .opened b => s.releaseOpen b
  | .slotWait => s.releaseWaiting
  | .voided r => s.failRelease r.reason 0 s.txn.refused
  | .idle => s

/-- R21, R31: a fall of TXN. In STARTUP, RECOVERY and HALTED only the level of the line changes. -/
def State.fall (s : State) : State :=
  let t := { s with pins := { s.pins with txnHigh := false } }
  if t.start.part.working then t.releaseTaken else t

/-- RELEASE (R31 to R36). -/
def execRelease (s : State) : Host.Outcome State Fault Refusal := .next s.fall

/-! ## ABT rises, and the open timer expires (R25, R30) -/

/-- R21, R25: a rise of ABT, which is no event in STARTUP, RECOVERY and HALTED. -/
def State.abort (s : State) : State := if s.start.part.working then s.voidTxn .aborted else s

/-- ABT_RISE (R25). -/
def execAbtRise (s : State) : Host.Outcome State Fault Refusal := .next s.abort

/-- R29, R30: the timebase reaches the open limit, and the transaction is voided with EXPIRED. -/
def State.openExpiry (s : State) : State :=
  if s.openTimerArmed then (s.advance s.openTimeLeft).voidTxn .expired else s

/-- OPEN_TIMER_EXPIRY (R30). -/
def execOpenTimerExpiry (s : State) : Host.Outcome State Fault Refusal := .next s.openExpiry

end Sys2Proof.Machine
end

