-- ==== Sys2Proof/Machine/Items.lean ====
section
/-! DEFINITION. Machine/Items.lean: the bytes of the fourteen items of the management port (R165, R166, R169, R170). Each is
a view of the state, which a read transfer takes (FAULT_READ: R163, R176). -/

namespace Sys2Proof.Machine

/-! ## Codes (R166) -/

/-- Part state codes. -/
def PartState.code : PartState → Byte
  | .startup => 0x00
  | .recovery => 0x01
  | .unformatted => 0x02
  | .run => 0x03
  | .formatting => 0x04
  | .halted => 0x05

/-- Context state codes. -/
def Context.code : Context → Byte
  | .idle => 0x00
  | .slotWait => 0x01
  | .opened _ => 0x02
  | .voided _ => 0x03

/-- Bank state codes. -/
def BankState.code : BankState → Byte
  | .free => 0x00
  | .capture => 0x01
  | .logWait => 0x02
  | .logging => 0x03
  | .applyWait => 0x04
  | .applying => 0x05
  | .retiring => 0x06

/-- Reset cause codes. -/
def ResetCause.code : ResetCause → Byte
  | .powerOn => 0x00
  | .resetPin => 0x01
  | .soft => 0x02
  | .powerResume => 0x03

/-- Anchor copy used codes. -/
def copyCode : Option Copy → Byte
  | none => 0x00
  | some .a => 0x01
  | some .b => 0x02

/-- Outcome result codes. -/
def OutcomeResult.code : OutcomeResult → Byte
  | .none => 0x00
  | .accepted => 0x01
  | .empty => 0x02
  | .failed => 0x03

/-- Policy codes. -/
def Policy.code (p : Policy) : Byte := BitVec.ofNat 8 (policyCode p)

/-- Refusal action codes. -/
def RefusalAction.code (a : RefusalAction) : Byte := BitVec.ofNat 8 (actionCode a)

/-- Fault kind codes; 00h is NONE. -/
def FaultKind.code : FaultKind → Byte
  | .accessRefused => 0x01
  | .transactionFailed => 0x02
  | .anchorCopyInvalid => 0x03
  | .partialImageDiscarded => 0x04

/-- Cause and reason codes. -/
def Reason.code : Reason → Byte
  | .range => 0x01
  | .rangeRead => 0x02
  | .anchor => 0x03
  | .log => 0x04
  | .unjournaled => 0x05
  | .locked => 0x06
  | .holdExpired => 0x07
  | .noSlot => 0x08
  | .unformatted => 0x09
  | .aborted => 0x0A
  | .expired => 0x0B
  | .overflow => 0x0C
  | .refusedWrite => 0x0D
  | .hostReset => 0x0E
  | .reset => 0x0F
  | .logTooSmall => 0x10
  | .sequenceEnd => 0x11
  | .signature => 0x12
  | .crc => 0x13
  | .logFields => 0x14
  | .noTransaction => 0x20
  | .busyState => 0x21
  | .badParameter => 0x22

/-- Command status codes. -/
def CommandStatus.code : CommandStatus → Byte
  | .idle => 0x00
  | .busy => 0x01
  | .done => 0x02
  | .refused => 0x03

/-- A reason byte, 00h when absent. -/
def reasonByte (r : Option Reason) : Byte :=
  match r with
  | some x => x.code
  | none => 0x00

/-- A line's level: 1 for high, 0 for low; a flag: 1 for yes, 0 for no. -/
def flagByte (b : Bool) : Byte := if b then 1 else 0

/-- A 32-bit field of four bytes. -/
def dwordBytes (d : DWord) : List Byte := bigEndian 4 d.toNat

/-- A 20-bit word address of three bytes, bits 23:20 read as 0 (R165). -/
def addrBytes (a : Addr) : List Byte := bigEndian 3 a.toNat

/-! ## The items (R166) -/

/-- IDENT. -/
def identBytes : List Byte := [0x42, 0x10, 0x01]

/-- STATE. -/
def State.stateBytes (s : State) : List Byte :=
  [s.start.part.code, s.txn.context.code, s.bank0.state.code, s.bank1.state.code, flagByte s.tbsyHigh, flagByte s.slotHigh,
    flagByte s.terrHigh]

/-- STARTUP_REPORT. -/
def StartupReport.bytes (r : StartupReport) : List Byte :=
  [r.cause.code, BitVec.ofNat 8 r.resets, copyCode r.copyUsed, BitVec.ofNat 8 r.copiesInvalid] ++ bigEndian 2 r.replayed
    ++ [flagByte r.partialImage] ++ bigEndian 4 r.head ++ dwordBytes r.nextSeq

/-- OUTCOME. -/
def OutcomeRecord.bytes (o : OutcomeRecord) : List Byte :=
  [o.result.code, reasonByte o.reason] ++ dwordBytes (o.sequence.getD 0) ++ bigEndian 2 (o.entries.getD 0)
    ++ bigEndian 2 (o.refused.getD 0)

/-- CONFIG. -/
def Configuration.bytes (c : Configuration) : List Byte :=
  bigEndian 2 c.openLimit.toNat ++ bigEndian 2 c.holdLimit.toNat ++ [BitVec.ofNat 8 c.burstLimit, c.alertMask.setWidth 8]

/-- LOG_INFO (R170): the tail fields are the in-part image's. -/
def State.logInfoBytes (s : State) : List Byte :=
  dwordBytes s.anchor.generation ++ bigEndian 4 s.anchor.image.logBase ++ bigEndian 4 s.anchor.image.logSize
    ++ bigEndian 4 s.anchor.image.tail ++ dwordBytes s.anchor.image.tailSeq ++ bigEndian 4 s.log.head
    ++ bigEndian 4 s.log.used ++ dwordBytes s.txn.nextSeq

/-- GUARD_EDIT and GUARD_LIVE (R168, R169): the entry select and the entry it names. -/
def guardBytes (t : GuardTable) (sel : Fin 8) : List Byte :=
  [BitVec.ofNat 8 sel.val] ++ addrBytes (t[sel]).first ++ addrBytes (t[sel]).last
    ++ [(t[sel]).policy.code, (t[sel]).action.code]

/-- The presence byte of FAULT. -/
def FaultRecord.presence (r : FaultRecord) : Byte :=
  flagByte r.addr.isSome + 2 * flagByte r.sequence.isSome + 4 * flagByte r.entry.isSome

/-- A fault record as FAULT lays it out, offsets 0 to 14. -/
def FaultRecord.bytes (r : FaultRecord) : List Byte :=
  [r.kind.code, reasonByte r.cause, r.presence] ++ addrBytes (r.addr.getD 0) ++ dwordBytes (r.sequence.getD 0)
    ++ [BitVec.ofNat 8 (match r.entry with | some i => i.val | none => 0)] ++ dwordBytes r.stamp

/-- R176: the records held after a read of FAULT. -/
def State.heldAfterRead (s : State) : Nat :=
  if s.start.part = .halted then s.mgmt.queue.length else s.mgmt.queue.length - 1

/-- FAULT (R176): the oldest record, and the records held after the read; an empty queue reads kind NONE and 00h. -/
def State.faultBytes (s : State) : List Byte :=
  match s.mgmt.queue with
  | r :: _ => r.bytes ++ [BitVec.ofNat 8 s.heldAfterRead]
  | [] => List.replicate 16 0

/-- FAULT_STATUS. -/
def State.faultStatusBytes (s : State) : List Byte := [BitVec.ofNat 8 s.mgmt.queue.length, BitVec.ofNat 8 s.mgmt.dropped]

/-- R65: the entry fields of BANK_VIEW; every one is 00h when the index is past the end. -/
def entryBytes (e : Option Entry) : List Byte :=
  match e with
  | some x => [1] ++ addrBytes x.addr ++ bigEndian 2 x.data.toNat ++ [BitVec.ofNat 8 (laneCode x.lanes), flagByte x.applied]
  | none => List.replicate 8 0

/-- The bank context fields of BANK_VIEW, an absent one coded as R166 gives. -/
def Bank.contextBytes (k : Bank) : List Byte :=
  [k.state.code] ++ dwordBytes (k.seq.getD 0) ++ bigEndian 2 k.entries.length ++ bigEndian 2 k.appliedCount
    ++ bigEndian 4 (match k.image with | some i => i.start | none => 0)
    ++ bigEndian 2 (match k.image with | some i => i.size | none => 0)
    ++ bigEndian 2 (k.target.getD 0xFFFF)

/-- The bank select byte. -/
def BankId.code : BankId → Byte
  | .b0 => 0
  | .b1 => 1

/-- BANK_VIEW (R65, R170). -/
def State.bankViewBytes (s : State) : List Byte :=
  let k := s.bank s.mgmt.bankSel
  [s.mgmt.bankSel.code, s.mgmt.entrySel] ++ entryBytes k.entries[s.mgmt.entrySel.toNat]? ++ k.contextBytes

/-- COUNTERS. -/
def Counters.bytes (c : Counters) : List Byte := dwordBytes c.accepted ++ dwordBytes c.durable ++ dwordBytes c.failed

/-- COMMAND (R171). -/
def CommandRecord.bytes (c : CommandRecord) : List Byte := [c.code] ++ dwordBytes c.paramA ++ dwordBytes c.paramB

/-- COMMAND_STATUS (R172). -/
def StatusRecord.bytes (r : StatusRecord) : List Byte := [r.status.code, r.code, reasonByte r.reason]

/-- R166: the bytes of an item by its number. -/
def State.itemBytes (s : State) (item : Nat) : List Byte :=
  match item with
  | 0x00 => identBytes
  | 0x01 => s.stateBytes
  | 0x02 => s.start.report.bytes
  | 0x03 => s.txn.outcome.bytes
  | 0x04 => s.mgmt.config.bytes
  | 0x05 => s.logInfoBytes
  | 0x06 => guardBytes s.mgmt.edit s.mgmt.editSel
  | 0x07 => guardBytes s.host.guards s.mgmt.liveSel
  | 0x08 => s.faultBytes
  | 0x09 => s.faultStatusBytes
  | 0x0A => s.bankViewBytes
  | 0x0B => s.mgmt.counters.bytes
  | 0x0C => s.mgmt.command.bytes
  | 0x0D => s.mgmt.status.bytes
  | _ => []

/-- R166: the length of an item in bytes. -/
def itemLength (item : Nat) : Nat := [3, 7, 15, 10, 6, 32, 9, 9, 16, 2, 27, 12, 9, 3].getD item 0

/-- R163: what a read transfer of `count` bytes returns: the item's bytes from offset 0, FFh past its length. -/
def readBytes (bytes : List Byte) (count : Nat) : List Byte :=
  bytes.take count ++ List.replicate (count - bytes.length) 0xFF

/-- R163: the bytes of the item that the item pointer selects. No item stands above 0Dh: a pointer there, which R164 rules out, selects
no bytes (DEDUCED, log entry 25). -/
def State.selectedBytes (s : State) : List Byte := s.itemBytes s.mgmt.pointer.toNat

end Sys2Proof.Machine
end

