-- ==== Sys2Proof/Machine/Transfers.lean ====
section
/-! DEFINITION. Machine/Transfers.lean: the transfers of the management port: REGISTER_WRITE, CONFIG_WRITE, FAULT_READ
(R161 to R169, R171, R176). -/

namespace Sys2Proof.Machine

/-- R161: the 7-bit target address: 34h plus ADR[1:0] as sampled. -/
def State.targetAddress (s : State) : BitVec 7 := 0x34 + s.mgmt.adr.setWidth 7

/-! ## Which bytes are refused (R164) -/

/-- R164: the command byte: the part is STARTUP, RECOVERY or HALTED, or a command is BUSY and the byte is not SOFT_RESET. -/
def State.commandByteRefused (s : State) (b : Byte) : Bool :=
  !s.start.part.working || (s.mgmt.status.status == .busy && b != 0x07)

/-- R164: a byte of CONFIG: the part is HALTED, or it is a burst limit outside 1 to 64. -/
def State.configByteRefused (s : State) (off : Nat) (b : Byte) : Bool :=
  s.start.part == .halted || (off == 4 && (b == 0 || decide (64 < b.toNat)))

/-- R164: a byte of GUARD_EDIT: an entry select above 7, or no policy or refusal action code. HALTED refuses none of them: R164 names
CONFIG and the command byte alone (DEDUCED, log entry 34). -/
def editByteRefused (off : Nat) (b : Byte) : Bool :=
  (off == 0 && decide (7 < b.toNat)) || (off == 7 && decide (2 < b.toNat)) || (off == 8 && decide (1 < b.toNat))

/-- R164, R169: a byte of GUARD_LIVE: an entry select above 7, or a read-only offset. -/
def liveByteRefused (off : Nat) (b : Byte) : Bool :=
  (off == 0 && decide (7 < b.toNat)) || (decide (1 ≤ off) && decide (off < 9))

/-- R164: a byte of BANK_VIEW: a bank select above 1, or a read-only offset. -/
def viewByteRefused (off : Nat) (b : Byte) : Bool :=
  (off == 0 && decide (1 < b.toNat)) || (decide (2 ≤ off) && decide (off < 27))

/-- R164: a data byte of an item at an offset is refused. The items not named have no writable offset (R166). -/
def State.byteRefused (s : State) (item off : Nat) (b : Byte) : Bool :=
  match item with
  | 0x04 => s.configByteRefused off b
  | 0x06 => editByteRefused off b
  | 0x07 => liveByteRefused off b
  | 0x0A => viewByteRefused off b
  | 0x0C => off == 0 && s.commandByteRefused b
  | _ => decide (off < itemLength item)

/-! ## What an acknowledged byte does (R165, R167 to R171) -/

/-- R29: a non-zero open limit at or below the time elapsed expires the open timer at once: in the event that stores it (DEDUCED,
log entry 6). -/
def State.openLimitActs (s : State) : State :=
  if s.openTimerArmed && decide (s.mgmt.config.openLimit.toNat ≤ s.txn.openTimer.millis) then s.voidTxn .expired else s

/-- R75: a non-zero hold limit at or below the time elapsed expires the hold at once: in the event that stores it (DEDUCED, log
entry 6). -/
def State.holdLimitActs (s : State) : State :=
  if s.holdTimerArmed && decide (s.mgmt.config.holdLimit.toNat ≤ s.host.holdTimer.micros) then s.expireHold else s

/-- The configuration is replaced. -/
def State.setConfig (s : State) (c : Configuration) : State := { s with mgmt := { s.mgmt with config := c } }

/-- R167: an acknowledged byte of CONFIG, with the earlier bytes of its field. -/
def State.configByte (s : State) (off : Nat) (held : List Byte) (b : Byte) : List Byte × State :=
  match off with
  | 0 => ([b], s)
  | 1 => ([], (s.setConfig { s.mgmt.config with openLimit := BitVec.ofNat 16 (fromBytes (held ++ [b])) }).openLimitActs)
  | 2 => ([b], s)
  | 3 => ([], (s.setConfig { s.mgmt.config with holdLimit := BitVec.ofNat 16 (fromBytes (held ++ [b])) }).holdLimitActs)
  | 4 => ([], s.setConfig { s.mgmt.config with burstLimit := b.toNat })
  | 5 => ([], s.setConfig { s.mgmt.config with alertMask := b.extractLsb' 0 4 })
  | _ => ([], s)

/-- The policy a code names (R166). -/
def policyOfCode (b : Byte) : Policy := if b = 0 then .plain else if b = 1 then .journaled else .locked

/-- The refusal action a code names (R166). -/
def actionOfCode (b : Byte) : RefusalAction := if b = 0 then .drop else .dropAndReset

/-- The selected entry of the guard edit table is replaced (R168). -/
def State.setEdit (s : State) (g : GuardEntry) : State :=
  { s with mgmt := { s.mgmt with edit := s.mgmt.edit.set s.mgmt.editSel g } }

/-- The selected entry of the guard edit table (R168). -/
def State.editEntry (s : State) : GuardEntry := s.mgmt.edit[s.mgmt.editSel]

/-- R168: an acknowledged byte of GUARD_EDIT. Bits 23:20 of an address are ignored (R165). -/
def State.editByte (s : State) (off : Nat) (held : List Byte) (b : Byte) : List Byte × State :=
  match off with
  | 0 => ([], { s with mgmt := { s.mgmt with editSel := Fin.ofNat 8 b.toNat } })
  | 1 => ([b], s)
  | 2 => (held ++ [b], s)
  | 3 => ([], s.setEdit { s.editEntry with first := BitVec.ofNat 20 (fromBytes (held ++ [b])) })
  | 4 => ([b], s)
  | 5 => (held ++ [b], s)
  | 6 => ([], s.setEdit { s.editEntry with last := BitVec.ofNat 20 (fromBytes (held ++ [b])) })
  | 7 => ([], s.setEdit { s.editEntry with policy := policyOfCode b })
  | 8 => ([], s.setEdit { s.editEntry with action := actionOfCode b })
  | _ => ([], s)

/-- R169: an acknowledged byte of GUARD_LIVE. -/
def State.liveByte (s : State) (off : Nat) (b : Byte) : List Byte × State :=
  match off with
  | 0 => ([], { s with mgmt := { s.mgmt with liveSel := Fin.ofNat 8 b.toNat } })
  | _ => ([], s)

/-- R170: an acknowledged byte of BANK_VIEW. -/
def State.viewByte (s : State) (off : Nat) (b : Byte) : List Byte × State :=
  match off with
  | 0 => ([], { s with mgmt := { s.mgmt with bankSel := if b = 0 then .b0 else .b1 } })
  | 1 => ([], { s with mgmt := { s.mgmt with entrySel := b } })
  | _ => ([], s)

/-- The COMMAND item is replaced. -/
def State.setCommand (s : State) (c : CommandRecord) : State := { s with mgmt := { s.mgmt with command := c } }

/-- R171: an acknowledged byte of COMMAND: the code sets both parameters to 0. -/
def State.commandByte (s : State) (off : Nat) (held : List Byte) (b : Byte) : List Byte × State :=
  match off with
  | 0 => ([], s.setCommand { s.mgmt.command with code := b, paramA := 0, paramB := 0 })
  | 1 => ([b], s)
  | 2 => (held ++ [b], s)
  | 3 => (held ++ [b], s)
  | 4 => ([], s.setCommand { s.mgmt.command with paramA := BitVec.ofNat 32 (fromBytes (held ++ [b])) })
  | 5 => ([b], s)
  | 6 => (held ++ [b], s)
  | 7 => (held ++ [b], s)
  | 8 => ([], s.setCommand { s.mgmt.command with paramB := BitVec.ofNat 32 (fromBytes (held ++ [b])) })
  | _ => ([], s)

/-- R162, R165: an acknowledged byte of an item; past the item's length it is discarded. -/
def State.acceptByte (s : State) (item off : Nat) (held : List Byte) (b : Byte) : List Byte × State :=
  match item with
  | 0x04 => s.configByte off held b
  | 0x06 => s.editByte off held b
  | 0x07 => s.liveByte off b
  | 0x0A => s.viewByte off b
  | 0x0C => s.commandByte off held b
  | _ => ([], s)

/-! ## Bytes of a write transfer (R162, R164) -/

/-- The acknowledge bits, as the port gave them. -/
def State.setAcks (s : State) (acks : List Bool) : State := { s with mgmt := { s.mgmt with acks := acks } }

/-- R162: the item pointer is set. -/
def State.setPointer (s : State) (item : Byte) : State := { s with mgmt := { s.mgmt with pointer := item } }

/-- R161: the transfer in which the port takes part. -/
def State.setTransfer (s : State) (t : Option Transfer) : State := { s with mgmt := { s.mgmt with transfer := t } }

/-- R162: a write transfer whose address byte the port has just acknowledged. -/
def WriteTransfer.begun : WriteTransfer := ⟨none, 0, [], false, false⟩

/-- R164: a byte is refused, and with it every later one; the bytes held of a field are discarded (R165). -/
def WriteTransfer.refuse (w : WriteTransfer) : WriteTransfer := { w with held := [], refused := true }

/-- R162, R164, R171: one byte of a write transfer: the acknowledge bit, the transfer and the state after it. -/
def State.takeByte (s : State) (w : WriteTransfer) (b : Byte) : Bool × WriteTransfer × State :=
  if w.refused then (false, w, s)
  else
    match w.item with
    | none => if 0x0D < b.toNat then (false, w.refuse, s) else (true, { w with item := some b.toNat }, s.setPointer b)
    | some item =>
      if s.byteRefused item w.offset b then (false, w.refuse, s)
      else
        let (held, t) := s.acceptByte item w.offset w.held b
        (true, { w with offset := w.offset + 1, held := held, commanded := w.commanded || (item == 0x0C && w.offset == 0) }, t)

/-- The bytes of a write transfer, one after another. -/
def takeBytes : List Byte → WriteTransfer → State → List Bool × WriteTransfer × State
  | [], w, s => ([], w, s)
  | b :: rest, w, s =>
    let (ack, v, t) := s.takeByte w b
    let (acks, u, r) := takeBytes rest v t
    (ack :: acks, u, r)

/-! ## Transfers (R161) -/

/-- R171: the command stored is due to be taken. -/
def State.armCommand (s : State) : State := s.setCommand { s.mgmt.command with due := some s.mgmt.command.code }

/-- R161, R171: a transfer ends, at a STOP or at a repeated START: a command whose byte was acknowledged in it is due to be taken,
unless the part is HALTED by then. -/
def State.endTransfer (s : State) : State :=
  let t := s.setTransfer none
  match s.mgmt.transfer with
  | some (.write w) => if w.commanded && s.start.part != .halted then t.armCommand else t
  | some (.read _) => t
  | none => t

/-- R161: after the bytes of a command the transfer is left open, or a STOP ends it. -/
def State.closeStretch (s : State) (t : Transfer) (stop : Bool) : State :=
  if stop then (s.setTransfer (some t)).endTransfer else s.setTransfer (some t)

/-- R161, R162, R164: the bytes go on with a write transfer; `acks` are the acknowledge bits given before them. -/
def State.goOnWriting (s : State) (w : WriteTransfer) (acks : List Bool) (bytes : List Byte) (stop : Bool) : State :=
  let (more, v, t) := takeBytes bytes w s
  (t.setAcks (acks ++ more)).closeStretch (.write v) stop

/-- R161: bytes that go on with no write transfer the port takes part in, such as one a reset has abandoned: none is acknowledged. -/
def State.refuseStretch (s : State) (count : Nat) (stop : Bool) : State :=
  let t := s.setAcks (List.replicate count false)
  if stop then t.endTransfer else t

/-- R161, R162, R164: bytes of a write transfer. A START ends the transfer before it; a transfer to another address is none of the
port's. `first` is the item number a CONFIG_WRITE stands for. The port answers in every part state, and while RST# is held low too:
DEDUCED, log entry 33. -/
def State.writeTransfer (s : State) (frame : Framing) (first bytes : List Byte) : State :=
  match frame.start with
  | some target =>
    let t := s.endTransfer
    if target = t.targetAddress then t.goOnWriting .begun [true] (first ++ bytes) frame.stop else t
  | none =>
    match s.mgmt.transfer with
    | some (.write w) => s.goOnWriting w [] bytes frame.stop
    | some (.read _) => s.refuseStretch bytes.length frame.stop
    | none => s.refuseStretch bytes.length frame.stop

/-- REGISTER_WRITE (R161, R162, R164, R165, R168 to R171). -/
def execRegisterWrite (frame : Framing) (bytes : List Byte) (s : State) : Host.Outcome State Fault Refusal :=
  .next (s.writeTransfer frame [] bytes)

/-- CONFIG_WRITE (R161, R164, R165, R167): the write transfer whose item number is CONFIG's. -/
def execConfigWrite (frame : Framing) (bytes : List Byte) (s : State) : Host.Outcome State Fault Refusal :=
  .next (s.writeTransfer frame [0x04] bytes)

/-- R176: the oldest record leaves the queue, unless the part is HALTED. -/
def State.dropOldest (s : State) : State :=
  if s.start.part = .halted then s else { s with mgmt := { s.mgmt with queue := s.mgmt.queue.tail } }

/-- R163: the port sends `count` bytes of those left, FFh past their end. -/
def State.sendBytes (s : State) (left : List Byte) (count : Nat) (stop : Bool) : State :=
  ({ s with mgmt := { s.mgmt with readData := readBytes left count } }).closeStretch (.read (left.drop count)) stop

/-- R161: the port drives no data, where it takes part in no read transfer. -/
def State.sendNothing (s : State) (stop : Bool) : State :=
  let t := { s with mgmt := { s.mgmt with readData := [] } }
  if stop then t.endTransfer else t

/-- R163, R176: what taking the values of the selected item changes: a read of FAULT removes the oldest record, any other nothing. -/
def State.valuesTaken (s : State) : State := if s.mgmt.pointer = 0x08 then s.dropOldest else s

/-- R161, R163, R176: a read transfer of the item that the item pointer selects, whose values are taken together as the address byte is
acknowledged. The port answers while RST# is held low too (DEDUCED, log entry 33). -/
def State.readTransfer (s : State) (frame : Framing) (count : Nat) : State :=
  match frame.start with
  | some target =>
    let t := s.endTransfer
    if target = t.targetAddress then t.valuesTaken.sendBytes t.selectedBytes count frame.stop else t
  | none =>
    match s.mgmt.transfer with
    | some (.read left) => s.sendBytes left count frame.stop
    | some (.write _) => s.sendNothing frame.stop
    | none => s.sendNothing frame.stop

/-- FAULT_READ, the table's one read transfer (R161, R163, R176; DEDUCED, log entry 16). -/
def execFaultRead (frame : Framing) (count : Nat) (s : State) : Host.Outcome State Fault Refusal :=
  .next (s.readTransfer frame count)

end Sys2Proof.Machine
end

