-- ==== Sys2Proof/Machine/Commands.lean ====
section
/-! DEFINITION. Machine/Commands.lean: the takes of the management commands (R171 to R173): ABORT, APPLY_GUARDS,
RELOAD_GUARD_EDIT, FORMAT, CLEAR_FAULTS, CLEAR_COUNTERS, SOFT_RESET and an unknown code. A take is an event of its own, after
the transfer whose command byte was acknowledged. -/

namespace Sys2Proof.Machine

/-- R172: the status a take leaves. -/
def State.setStatus (s : State) (status : CommandStatus) (code : Byte) (reason : Option Reason) : State :=
  { s with mgmt := { s.mgmt with status := ⟨status, code, reason⟩ } }

/-- R172: a command is taken and done. -/
def State.commandDone (s : State) (code : Byte) : State := s.setStatus .done code none

/-- R172: a command is taken and refused, with its reason. -/
def State.commandRefused (s : State) (code : Byte) (reason : Reason) : State := s.setStatus .refused code (some reason)

/-- No command is due any longer (R171). -/
def State.disarm (s : State) : State := s.setCommand { s.mgmt.command with due := none }

/-- R171: the take of the command that is due, when its code is one of those named; the event cannot arise otherwise. A part
that is HALTED by then takes nothing. -/
def State.takeDue (s : State) (named : Byte → Bool) (effect : Byte → State → State) : State :=
  match s.mgmt.command.due with
  | some c =>
    if named c then (if s.start.part.working then effect c s.disarm else s.disarm) else s
  | none => s

/-! ## ABORT (R26) -/

/-- R26: as a rise of ABT, with its status. -/
def State.abortTaken (s : State) : State :=
  match s.txn.context with
  | .opened _ => (s.voidTxn .aborted).commandDone 0x01
  | .slotWait => (s.voidTxn .aborted).commandDone 0x01
  | .idle => s.commandRefused 0x01 .noTransaction
  | .voided _ => s.commandRefused 0x01 .noTransaction

/-- ABORT (R26). -/
def execAbort (s : State) : Host.Outcome State Fault Refusal := .next (s.takeDue (· == 0x01) fun _ t => t.abortTaken)

/-! ## APPLY_GUARDS (R125) -/

/-- R125: no enabled entry of the edit table reaches the memory size. -/
def guardsFit (size : Nat) (t : GuardTable) : Bool :=
  t.toList.all fun g => decide (g.last < g.first) || decide (g.last.toNat < size)

/-- R125: the acceptance: the edit table goes into the in-part image and an anchor write is requested. -/
def State.guardsAccepted (s : State) : State :=
  let t := { s with anchor := { s.anchor with
    image := { s.anchor.image with guards := s.mgmt.edit }
    guardsDue := true } }
  (t.setStatus .busy 0x02 none).requestWrite

/-- R125: the checks in order. -/
def State.guardsTaken (s : State) : State :=
  if s.start.part ≠ .run then s.commandRefused 0x02 .busyState
  else if guardsFit s.memSize s.mgmt.edit then s.guardsAccepted
  else s.commandRefused 0x02 .badParameter

/-- APPLY_GUARDS (R125). -/
def execApplyGuards (s : State) : Host.Outcome State Fault Refusal := .next (s.takeDue (· == 0x02) fun _ t => t.guardsTaken)

/-! ## RELOAD_GUARD_EDIT, CLEAR_FAULTS, CLEAR_COUNTERS -/

/-- R168: the live guard table is copied into the edit table. -/
def State.reloadTaken (s : State) : State :=
  ({ s with mgmt := { s.mgmt with edit := s.host.guards } }).commandDone 0x03

/-- RELOAD_GUARD_EDIT (R168, R173). -/
def execReloadGuardEdit (s : State) : Host.Outcome State Fault Refusal :=
  .next (s.takeDue (· == 0x03) fun _ t => t.reloadTaken)

/-- R175: the fault queue is emptied and the dropped count is 0. -/
def State.clearFaultsTaken (s : State) : State :=
  ({ s with mgmt := { s.mgmt with queue := [], dropped := 0 } }).commandDone 0x05

/-- CLEAR_FAULTS (R173, R175). -/
def execClearFaults (s : State) : Host.Outcome State Fault Refusal :=
  .next (s.takeDue (· == 0x05) fun _ t => t.clearFaultsTaken)

/-- R178: the three counters are set to 0. -/
def State.clearCountersTaken (s : State) : State :=
  ({ s with mgmt := { s.mgmt with counters := ⟨0, 0, 0⟩ } }).commandDone 0x06

/-- CLEAR_COUNTERS (R173, R178). -/
def execClearCounters (s : State) : Host.Outcome State Fault Refusal :=
  .next (s.takeDue (· == 0x06) fun _ t => t.clearCountersTaken)

/-! ## FORMAT (R126, R127) -/

/-- R126: the first four checks of a FORMAT: it is BUSY_STATE unless the part is RUN or UNFORMATTED, the context IDLE, both
banks FREE, and no anchor write in flight or pending. -/
def State.formatBusy (s : State) : Bool :=
  decide (s.start.part ≠ .run ∧ s.start.part ≠ .unformatted) || decide (s.txn.context ≠ .idle)
    || decide (s.bank0.state ≠ .free ∨ s.bank1.state ≠ .free) || s.anchor.write.isSome || s.anchor.pending

/-- R126: the region the parameters A and B give. -/
def State.formatRegion (s : State) : LogRegion := ⟨s.mgmt.command.paramA.toNat, s.mgmt.command.paramB.toNat⟩

/-- R127: the clear write of the new log base. -/
def clearWrite (base : Nat) : Access := ⟨true, BitVec.ofNat 20 base, bothLanes, 0x0000⟩

/-- R127: the record of an accepted FORMAT: the former region, or none when the part was UNFORMATTED. -/
def State.formatJob (s : State) (r : LogRegion) : FormatJob :=
  ⟨r, if s.start.part = .run then some s.imageRegion else none, .clearing⟩

/-- R127: the acceptance: BUSY, the former region recorded, FORMATTING, the clear write claimed. -/
def State.formatAccepted (s : State) (r : LogRegion) : State :=
  let t := { s with
    anchor := { s.anchor with format := some (s.formatJob r) }
    start := { s.start with part := .formatting } }
  (t.setStatus .busy 0x04 none).claim .anchor (clearWrite r.base)

/-- R126: the checks in order. -/
def State.formatTaken (s : State) : State :=
  if s.formatBusy then s.commandRefused 0x04 .busyState
  else if regionFits s.memSize s.formatRegion then s.formatAccepted s.formatRegion
  else s.commandRefused 0x04 .badParameter

/-- FORMAT (R126, R127). -/
def execFormat (s : State) : Host.Outcome State Fault Refusal := .next (s.takeDue (· == 0x04) fun _ t => t.formatTaken)

/-! ## SOFT_RESET and unknown codes -/

/-- SOFT_RESET (R144, R145, R173). -/
def execSoftReset (straps : Straps) (s : State) : Host.Outcome State Fault Refusal :=
  .next (s.takeDue (· == 0x07) fun _ t => t.resetBy .soft straps)

/-- R171: a command code outside 01h to 07h. -/
def unknownCode (b : Byte) : Bool := b == 0x00 || decide (0x07 < b.toNat)

/-- UNKNOWN_COMMAND (R171, R172). -/
def execUnknownCommand (s : State) : Host.Outcome State Fault Refusal :=
  .next (s.takeDue unknownCode fun c t => t.commandRefused c .badParameter)

end Sys2Proof.Machine
end

