-- ==== Sys2Proof/Machine/HostPort.lean ====
section
/-! DEFINITION. Machine/HostPort.lean: the commands of the host port: HOST_WRITE, HOST_READ, HOST_CYCLE_END,
HOST_ACCESS_COMPLETION, HOLD_EXPIRED, REFUSAL_PULSE_END. -/

namespace Sys2Proof.Machine

/-- HOST_WRITE (R1 to R3, R7 to R14). -/
def execHostWrite (addr : Addr) (data : Word) (lanes : Lanes) (oe : Bool) (s : State) : Host.Outcome State Fault Refusal :=
  .next (s.presentCycle (writeLines addr data lanes oe))

/-- HOST_READ (R1 to R3, R17, R18, R66 to R68). -/
def execHostRead (addr : Addr) (lanes : Lanes) (s : State) : Host.Outcome State Fault Refusal :=
  .next (s.presentCycle (readLines addr lanes s.pins.host.data))

/-- R1, R3: the host's cycle ends: nothing is driven on HD, and a cycle held unclassified is no longer there to be taken. An
access that has been taken goes on (R2). -/
def State.endCycle (s : State) : State :=
  { s with
    pins := { s.pins with host := endLines s.pins.host }
    host := { s.host with cycleTaken := false, driven := none } }

/-- HOST_CYCLE_END (R3). -/
def execHostCycleEnd (s : State) : Host.Outcome State Fault Refusal := .next s.endCycle

/-- R2: the cycle of the access in progress is still on the host bus. -/
def State.cycleLive (s : State) : Bool := (recognised s.pins.host).isSome && s.host.cycleTaken

/-- R18, R68: a read completes with the word memory gave: its needed lanes join those found. The data is driven while the
read's cycle lasts (R2). -/
def State.finishRead (s : State) (found : Word) (need : Lanes) (word : Word) : State :=
  { s with host := { s.host with
      access := none
      driven := if s.cycleLive then some (pickLanes need word found) else s.host.driven } }

/-- R9, R68, R71: the host access whose memory access has completed completes. -/
def State.finishHostAccess (s : State) (word : Word) : State :=
  match s.host.access with
  | some .passWrite => { s with host := { s.host with access := none } }
  | some (.read _ found need) => s.finishRead found need word
  | none => if (s.slotAwaiting .port).isSome then s.clearSlot else s

/-- R140: the memory port reports the completion of the host port's access, HALTED included. The host's next cycle is recognised in an event of its
own (R2, R135: `State.takeWaiting`). -/
def State.hostCompletion (s : State) : State :=
  match s.flightOf .host with
  | some x => (s.landed x).finishHostAccess (readWord s.mem x.addr)
  | none => s

/-- HOST_ACCESS_COMPLETION (R9, R18, R68, R71, R140). -/
def execHostAccessCompletion (s : State) : Host.Outcome State Fault Refusal := .next s.hostCompletion

/-- R75, R76, R28: the timebase reaches the hold limit, and the held write is refused. -/
def State.holdExpiry (s : State) : State :=
  if s.holdTimerArmed then (s.advance s.holdTimeLeft).expireHold else s

/-- HOLD_EXPIRED (R76, R28). -/
def execHoldExpired (s : State) : Host.Outcome State Fault Refusal := .next s.holdExpiry

/-- R15: the timebase reaches the end of the refusal pulse, and the host port stops driving HRST#. In HALTED the timebase is
frozen and the pulse lasts. -/
def State.pulseEnd (s : State) : State :=
  match s.host.pulse with
  | some left =>
    if s.start.part = .halted then s
    else
      let t := s.advance left
      { t with host := { t.host with pulse := none } }
  | none => s

/-- REFUSAL_PULSE_END (R15, R16). -/
def execRefusalPulseEnd (s : State) : Host.Outcome State Fault Refusal := .next s.pulseEnd

end Sys2Proof.Machine
end

