-- ==== Sys2Proof/Machine/Logging.lean ====
section
/-! DEFINITION. Machine/Logging.lean: the commands of the log writer: LOG_WRITER_TAKE and IMAGE_WORD_COMPLETION. -/

namespace Sys2Proof.Machine

/-- R88: the free space of the log. -/
def State.freeSpace (s : State) : Nat := s.anchor.image.logSize - s.log.used

/-- R91: the log writer takes a bank. -/
def State.takeForLog (s : State) (b : BankId) : State :=
  let k := s.bank b
  let z := imageSize k.entries.length
  { s.setBank b { k with state := .logging, image := some ⟨s.log.head, z⟩ } with
    log := ⟨some ⟨b, 0⟩, (s.log.head + z) % s.anchor.image.logSize, s.log.used + z, crcInit⟩ }

/-- R90: the IDLE log writer examines the banks in LOG_WAIT: the oldest is taken if its image fits the free space. -/
def State.logTake (s : State) : State :=
  if s.start.part = .run ∧ s.log.job = none then
    match s.oldestIn .logWait with
    | some b => if imageSize (s.bank b).entries.length ≤ s.freeSpace then s.takeForLog b else s
    | none => s
  else s

/-- LOG_WRITER_TAKE (R90, R91). -/
def execLogWriterTake (s : State) : Host.Outcome State Fault Refusal := .next s.logTake

/-- R58, R94: the durability point of a bank's group. -/
def State.durable (s : State) (b : BankId) : State :=
  let t := s.setBank b { s.bank b with state := .applyWait }
  { t with
    log := { t.log with job := none }
    mgmt := { t.mgmt with counters := { t.mgmt.counters with durable := countOnce t.mgmt.counters.durable } } }

/-- R92, R94: an image word has completed; COMMIT word 3 is the last. -/
def State.imageWordDone (s : State) (j : LogJob) : State :=
  if j.words + 1 = imageSize (s.bank j.bank).entries.length then s.durable j.bank
  else { s with log := { s.log with job := some ⟨j.bank, j.words + 1⟩ } }

/-- R92, R97: the memory port completes an image word. In HALTED the log writer does not advance. -/
def State.imageCompletion (s : State) : State :=
  match s.flightOf .log with
  | some x =>
    match s.log.job with
    | some j => if s.start.part = .run then (s.landed x).imageWordDone j else s.landed x
    | none => s.landed x
  | none => s

/-- IMAGE_WORD_COMPLETION (R92, R94, R97). -/
def execImageWordCompletion (s : State) : Host.Outcome State Fault Refusal := .next s.imageCompletion

end Sys2Proof.Machine
end

