-- ==== Sys2Proof/Machine/Recovery.lean ====
section
/-! DEFINITION. Machine/Recovery.lean: the completions of the start-up controller's accesses: ANCHOR_READ_COMPLETION,
SCAN_READ_COMPLETION, REPLAY_READ_COMPLETION, REPLAY_WRITE_COMPLETION. A completion that arrives in HALTED ends the access and
nothing else (R157). -/

namespace Sys2Proof.Machine

/-- R147: one more anchor word has been read; with the 128th the anchor reads end. -/
def State.anchorWordRead (s : State) (words : List Word) : State :=
  if words.length = Config.anchorArea then s.endAnchorReads words
  else { s with start := { s.start with phase := .anchors words } }

/-- R147, R148: the completion of an anchor read. -/
def State.anchorReadDone (s : State) : State :=
  match s.flightOf .startup, s.start.phase with
  | some x, .anchors words =>
    if s.start.part = .startup then (s.landed x).anchorWordRead (words ++ [readWord s.mem x.addr]) else s.landed x
  | _, _ => s

/-- ANCHOR_READ_COMPLETION (R147 to R149). -/
def execAnchorReadCompletion (s : State) : Host.Outcome State Fault Refusal := .next s.anchorReadDone

/-- R150: the completion of a scan read. -/
def State.scanReadDone (s : State) : State :=
  match s.flightOf .startup, s.start.phase with
  | some x, .scan word count head =>
    if s.start.part = .recovery then (s.landed x).scanWord word count head (readWord s.mem x.addr) else s.landed x
  | _, _ => s

/-- SCAN_READ_COMPLETION (R150, R152, R153). -/
def execScanReadCompletion (s : State) : Host.Outcome State Fault Refusal := .next s.scanReadDone

/-- R151: the completion of a re-read of an ENTRY record's word. -/
def State.replayReadDone (s : State) : State :=
  match s.flightOf .startup, s.start.phase with
  | some x, .replay count entry record =>
    if record.length < 3 then
      if s.start.part = .recovery then
        { s.landed x with start := { s.start with phase := .replay count entry (record ++ [readWord s.mem x.addr]) } }
      else s.landed x
    else s
  | _, _ => s

/-- REPLAY_READ_COMPLETION (R151). -/
def execReplayReadCompletion (s : State) : Host.Outcome State Fault Refusal := .next s.replayReadDone

/-- R151: the completion of a replay write. -/
def State.replayWriteDone (s : State) : State :=
  match s.flightOf .startup, s.start.phase with
  | some x, .replay count entry record =>
    if record.length < 3 then s
    else if s.start.part = .recovery then (s.landed x).replayedEntry count entry
    else s.landed x
  | _, _ => s

/-- REPLAY_WRITE_COMPLETION (R151 to R153). -/
def execReplayWriteCompletion (s : State) : Host.Outcome State Fault Refusal := .next s.replayWriteDone

end Sys2Proof.Machine
end

