-- ==== Sys2Proof/Machine/Resets.lean ====
section
/-! DEFINITION. Machine/Resets.lean: POWER_ON, RESET_PIN, RST_RISE, POWER_RESUME and PFW_FALL. SOFT_RESET, a command of the
management port, stands in Machine/Commands.lean. -/

namespace Sys2Proof.Machine

/-- R144, R145: POWER_ON, with the pins at the levels they have when the supply comes up. -/
def State.powerOn (s : State) (p : PowerPins) : State :=
  let t := s.resetBy .powerOn p.straps
  { t with pins := { t.pins with txnHigh := p.txnHigh, rstHigh := p.rstHigh, pfwHigh := p.pfwHigh } }

/-- POWER_ON (R144). -/
def execPowerOn (pins : PowerPins) (s : State) : Host.Outcome State Fault Refusal := .next (s.powerOn pins)

/-- R144: RST# falls. -/
def State.resetPin (s : State) (straps : Straps) : State :=
  let t := s.resetBy .resetPin straps
  { t with pins := { t.pins with rstHigh := false } }

/-- RESET_PIN (R144). -/
def execResetPin (straps : Straps) (s : State) : Host.Outcome State Fault Refusal := .next (s.resetPin straps)

/-- RST_RISE (R144, R147): RST# is high, and the start-up controller can claim its first read. -/
def execRstRise (s : State) : Host.Outcome State Fault Refusal :=
  .next { s with pins := { s.pins with rstHigh := true } }

/-- R144: PFW# rises. In HALTED it is a reset; elsewhere it is no event and only the level changes. -/
def State.pfwRise (s : State) (straps : Straps) : State :=
  let t := { s with pins := { s.pins with pfwHigh := true } }
  if s.start.part = .halted then t.resetBy .powerResume straps else t

/-- POWER_RESUME (R144, R158). -/
def execPowerResume (straps : Straps) (s : State) : Host.Outcome State Fault Refusal := .next (s.pfwRise straps)

/-- R157: the part states in which a fall of PFW# halts the part. -/
def PartState.halts : PartState → Bool
  | .recovery => true
  | .unformatted => true
  | .run => true
  | .formatting => true
  | .startup => false
  | .halted => false

/-- R144, R157: PFW# falls. In STARTUP only the level changes. -/
def State.pfwFall (s : State) : State :=
  let t := { s with pins := { s.pins with pfwHigh := false } }
  if t.start.part.halts then t.enterHalted else t

/-- PFW_FALL (R157). -/
def execPfwFall (s : State) : Host.Outcome State Fault Refusal := .next s.pfwFall

end Sys2Proof.Machine
end

