-- ==== Sys2Proof/Machine/Dispatch.lean ====
section
/-! DEFINITION. Machine/Dispatch.lean: one arm per command, each one call of its meaning. -/

namespace Sys2Proof.Machine

def exec (i : Instr) (s : State) : Host.Outcome State Fault Refusal :=
  match i with
  | .hostWrite addr data lanes oe => Sys2Proof.Machine.execHostWrite addr data lanes oe s
  | .hostRead addr lanes => Sys2Proof.Machine.execHostRead addr lanes s
  | .refusalPulseEnd => Sys2Proof.Machine.execRefusalPulseEnd s
  | .holdExpired => Sys2Proof.Machine.execHoldExpired s
  | .txnRise => Sys2Proof.Machine.execTxnRise s
  | .release => Sys2Proof.Machine.execRelease s
  | .abtRise => Sys2Proof.Machine.execAbtRise s
  | .openTimerExpiry => Sys2Proof.Machine.execOpenTimerExpiry s
  | .memoryClaim who => Sys2Proof.Machine.execMemoryClaim who s
  | .grant => Sys2Proof.Machine.execGrant s
  | .hostAccessCompletion => Sys2Proof.Machine.execHostAccessCompletion s
  | .logWriterTake => Sys2Proof.Machine.execLogWriterTake s
  | .imageWordCompletion => Sys2Proof.Machine.execImageWordCompletion s
  | .applyTake => Sys2Proof.Machine.execApplyTake s
  | .applyChoice => Sys2Proof.Machine.execApplyChoice s
  | .homeWriteCompletion => Sys2Proof.Machine.execHomeWriteCompletion s
  | .pendingWriteStart => Sys2Proof.Machine.execPendingWriteStart s
  | .anchorWordCompletion => Sys2Proof.Machine.execAnchorWordCompletion s
  | .formatClearCompletion => Sys2Proof.Machine.execFormatClearCompletion s
  | .formatSecondWriteStart => Sys2Proof.Machine.execFormatSecondWriteStart s
  | .powerOn pins => Sys2Proof.Machine.execPowerOn pins s
  | .resetPin straps => Sys2Proof.Machine.execResetPin straps s
  | .rstRise => Sys2Proof.Machine.execRstRise s
  | .powerResume straps => Sys2Proof.Machine.execPowerResume straps s
  | .pfwFall => Sys2Proof.Machine.execPfwFall s
  | .anchorReadCompletion => Sys2Proof.Machine.execAnchorReadCompletion s
  | .scanReadCompletion => Sys2Proof.Machine.execScanReadCompletion s
  | .replayWriteCompletion => Sys2Proof.Machine.execReplayWriteCompletion s
  | .registerWrite frame bytes => Sys2Proof.Machine.execRegisterWrite frame bytes s
  | .configWrite frame bytes => Sys2Proof.Machine.execConfigWrite frame bytes s
  | .faultRead frame count => Sys2Proof.Machine.execFaultRead frame count s
  | .abort => Sys2Proof.Machine.execAbort s
  | .applyGuards => Sys2Proof.Machine.execApplyGuards s
  | .reloadGuardEdit => Sys2Proof.Machine.execReloadGuardEdit s
  | .format => Sys2Proof.Machine.execFormat s
  | .clearFaults => Sys2Proof.Machine.execClearFaults s
  | .clearCounters => Sys2Proof.Machine.execClearCounters s
  | .softReset straps => Sys2Proof.Machine.execSoftReset straps s
  | .unknownCommand => Sys2Proof.Machine.execUnknownCommand s
  | .replayReadCompletion => Sys2Proof.Machine.execReplayReadCompletion s
  | .hostCycleEnd => Sys2Proof.Machine.execHostCycleEnd s

end Sys2Proof.Machine
end

