-- ==== Sys2Proof/Machine/Timebase.lean ====
section
/-! DEFINITION. Machine/Timebase.lean: what one microsecond of the internal timebase brings about when no command waits: the
timers advance, and an expiry or the end of a pulse that is due is taken. DESIGN CHOICE, log entries 4 and 5. And what an idle step
does: a host cycle that waits on the bus is taken before time passes. DESIGN CHOICE, log entry 12. -/

namespace Sys2Proof.Machine

/-- R15: the end of a refusal pulse whose 100 µs have elapsed. -/
def State.pulseDue (s : State) : State := if s.host.pulse = some 0 then s.pulseEnd else s

/-- R75, R76: the expiry of a hold timer that has reached the hold limit. -/
def State.holdDue (s : State) : State := if s.holdTimeLeft = 0 then s.holdExpiry else s

/-- R29, R30: the expiry of an open timer that has reached the open limit. -/
def State.openDue (s : State) : State := if s.openTimeLeft = 0 then s.openExpiry else s

/-- One microsecond passes. In HALTED the timebase is frozen (R146) and nothing changes. -/
def State.tick (s : State) : State := (s.advance 1).pulseDue.holdDue.openDue

/-- What a step does when no command waits: the host port takes a cycle that waits on the bus (R2), and where none is to be taken
one microsecond passes. -/
def State.idleStep (s : State) : State := if s.cycleReady then s.takeCycle else s.tick

end Sys2Proof.Machine
end

