-- ==== Sys2Proof/Safety.lean ====
section
/-! DEFINITION. Safety.lean: what counts as a sound state of the part, in the terms the statements use: the invariants the data
sheet gives for the banks, the log, the numbers it bounds, and what a completed memory write leaves. -/

namespace Sys2Proof.Machine

/-! ## Entries and banks -/

/-- R45: an entry's lane set is non-empty and its data word holds 00h on the lanes outside it. -/
def Entry.sound (e : Entry) : Prop := noLane e.lanes = false ∧ e.data = maskLanes e.lanes e.data

/-- R44, R45: at most 256 entries, no two for one word, each sound. -/
def Bank.entriesSound (k : Bank) : Prop :=
  k.entries.length ≤ 256 ∧ (k.entries.map (·.addr)).Nodup ∧ ∀ e ∈ k.entries, e.sound

/-- R51, R54: the sequence number is present and is not 0. -/
def Bank.numbered (k : Bank) : Prop := ∃ q, k.seq = some q ∧ q ≠ 0

/-- R57: the image place is present, its size 3n + 8. -/
def Bank.placed (k : Bank) : Prop := ∃ i, k.image = some i ∧ i.size = 3 * k.entries.length + 8

/-- R51: a position of the bank names an unapplied entry. -/
def Bank.unapplied (k : Bank) (i : Nat) : Prop := ∃ e, k.entries[i]? = some e ∧ e.applied = false

/-- R51: which fields are present in each bank state. -/
def Bank.fieldsSound (k : Bank) : Prop :=
  match k.state with
  | .free => k.seq = none ∧ k.entries = [] ∧ k.image = none ∧ k.target = none
  | .capture => k.seq = none ∧ k.appliedCount = 0 ∧ k.image = none ∧ k.target = none
  | .logWait => k.numbered ∧ k.entries ≠ [] ∧ k.appliedCount = 0 ∧ k.image = none ∧ k.target = none
  | .logging => k.numbered ∧ k.entries ≠ [] ∧ k.appliedCount = 0 ∧ k.placed ∧ k.target = none
  | .applyWait => k.numbered ∧ k.entries ≠ [] ∧ k.appliedCount = 0 ∧ k.placed ∧ k.target = none
  | .applying => k.numbered ∧ k.appliedCount < k.entries.length ∧ k.placed ∧ ∀ i, k.target = some i → k.unapplied i
  | .retiring => k.numbered ∧ k.entries ≠ [] ∧ k.appliedCount = k.entries.length ∧ k.placed ∧ k.target = none

/-- R88: the log words a bank has reserved. -/
def Bank.reserved (k : Bank) : Nat :=
  match k.state, k.image with
  | .logging, some i => i.size
  | .applyWait, some i => i.size
  | .applying, some i => i.size
  | .retiring, some i => i.size
  | _, _ => 0

/-! ## The protocol among the blocks -/

/-- R44, R45, R51: every bank is sound. -/
def State.banksSound (s : State) : Prop := ∀ b, (s.bank b).entriesSound ∧ (s.bank b).fieldsSound

/-- R19: the bank in use is the one bank in CAPTURE, and the context is OPEN on it. -/
def State.contextSound (s : State) : Prop := ∀ b, s.txn.context = .opened b ↔ (s.bank b).state = .capture

/-- R90: the log writer is WRITING exactly while a bank is in LOGGING. -/
def State.logSound (s : State) : Prop := ∀ b, (∃ n, s.log.job = some ⟨b, n⟩) ↔ (s.bank b).state = .logging

/-- R100: the apply engine is WRITING exactly while a bank is in APPLYING, and its in-flight entry is unapplied. -/
def State.applySound (s : State) : Prop :=
  (∀ b, s.apply.bank = some b ↔ (s.bank b).state = .applying) ∧
  ∀ i, s.apply.inFlight = some i → ∃ b, s.apply.bank = some b ∧ (s.bank b).unapplied i

/-- R88: used words is the sum of the image sizes of the banks that hold log space, and never exceeds the log size. -/
def State.usedSound (s : State) : Prop :=
  s.log.used = s.bank0.reserved + s.bank1.reserved ∧ s.log.used ≤ s.anchor.image.logSize

/-- R32, R54: a committed bank's sequence number is below the next one (0 ranking above all), and two committed banks never
carry the same. -/
def State.sequencesSound (s : State) : Prop :=
  (∀ b, (s.bank b).state.committed = true → s.txn.nextSeq = 0 ∨ (s.bank b).rank < s.txn.nextSeq.toNat) ∧
  (s.bank0.state.committed = true → s.bank1.state.committed = true → s.bank0.rank ≠ s.bank1.rank)

/-- R143, R126: outside RUN and HALTED both banks are FREE, and a FORMAT is under way only in FORMATTING or a halt of it. -/
def State.partSound (s : State) : Prop :=
  (s.start.part ≠ .run → s.start.part ≠ .halted → s.bank0.state = .free ∧ s.bank1.state = .free) ∧
  (s.anchor.format.isSome = true → s.start.part = .formatting ∨ s.start.part = .halted)

/-- R1, R11: a held write has a lane. -/
def State.slotSound (s : State) : Prop := ∀ h, s.host.slot = some h → noLane h.lanes = false

/-- The protocol invariant: what R19, R44, R45, R51, R54, R88, R90 and R100 say of every moment. -/
def State.protocol (s : State) : Prop :=
  s.banksSound ∧ s.contextSound ∧ s.logSound ∧ s.applySound ∧ s.usedSound ∧ s.sequencesSound ∧ s.partSound ∧ s.slotSound

/-! ## Bounded numbers -/

/-- The ranges of the numbers the part holds: R15, R19, R29, R75, R138, R145, R148, R151, R164 and R175. -/
def State.bounded (s : State) : Prop :=
  s.mgmt.queue.length ≤ 16 ∧ s.mgmt.dropped ≤ 255 ∧ s.txn.refused ≤ 65535 ∧ s.txn.openTimer.millis ≤ 65535 ∧
  s.host.holdTimer.micros ≤ 65535 ∧ (∀ n, s.host.pulse = some n → n ≤ 100) ∧
  1 ≤ s.mgmt.config.burstLimit ∧ s.mgmt.config.burstLimit ≤ 64 ∧ s.port.burst ≤ 64 ∧
  s.start.report.resets ≤ 255 ∧ s.start.report.replayed ≤ 65535 ∧ s.start.report.copiesInvalid ≤ 2

/-- R140, R157: the halt flag is set exactly in HALTED. -/
def State.haltSound (s : State) : Prop := s.port.halt = true ↔ s.start.part = .halted

/-! ## Claims -/

/-- R135: the claimant has a claim waiting or in flight. -/
def State.claims (s : State) (who : Claimant) : Prop :=
  s.port.waiting.get who ≠ none ∨ ∃ f, s.port.inFlight = some f ∧ f.who = who

/-- R135: no claimant has a claim waiting and one in flight; R2, R9, R71: the host port has one exactly while an access is in progress
or a held write waits for the memory port, and never both; R122, R127: the anchor writer's belongs to its write or to a FORMAT's
clear. -/
def State.claimsSound (s : State) : Prop :=
  (∀ who f, s.port.waiting.get who ≠ none → s.port.inFlight = some f → f.who ≠ who) ∧
  (s.claims .host ↔ s.host.access ≠ none ∨ ∃ h, s.host.slot = some h ∧ h.awaits = .port) ∧
  (s.host.access = none ∨ s.host.slot = none) ∧
  (s.claims .anchor → s.anchor.write ≠ none ∨ ∃ j, s.anchor.format = some j ∧ j.phase = .clearing)

/-! ## Memory -/

/-- R133: what a completed word write leaves of the attached memory: its byte on each lane of its lane set, and every other
byte as it was. -/
def stored (m m' : Memory) (a : Addr) (l : Lanes) (w : Word) : Prop :=
  ∀ k, readByte m' k =
    if l.lower = true ∧ k = lowerKey a then lowerByte w
    else if l.upper = true ∧ k = upperKey a then upperByte w
    else readByte m k

/-! ## Forms the statements share -/

/-- R3, R21, R173: the part states in which the host port takes accesses, the transaction controller takes events and a
command is taken. -/
def State.controllerWorks (s : State) : Prop :=
  s.start.part = .unformatted ∨ s.start.part = .run ∨ s.start.part = .formatting

/-- R2, R3: the host port takes a cycle presented now: the part state lets it, and no access is in progress. -/
def State.hostTakes (s : State) : Prop := s.controllerWorks ∧ s.host.access = none ∧ s.host.slot = none

/-- R2, R3: the host's next cycle waits on the bus, recognisable and untaken, at a port that takes it. -/
def State.nextCycleWaits (s : State) : Prop := s.hostTakes ∧ recognised s.pins.host ≠ none ∧ s.host.cycleTaken = false

/-- R1, R2: a cycle is on the host bus and the port has taken it; nothing is driven for it yet. -/
def State.onBus (s : State) (lines : HostLines) : State :=
  { s with
    pins := { s.pins with host := lines }
    host := { s.host with cycleTaken := true, driven := none } }

/-- R6: the word lies in a log region in force: in RUN the region of the in-part anchor image, in FORMATTING the region in force
when the FORMAT was accepted, if there was one, and the new one; in every other part state none is. -/
def State.logRegionHas (s : State) (a : Addr) : Prop :=
  let within := fun base size : Nat => base ≤ a.toNat ∧ a.toNat < base + size
  (s.start.part = .run ∧ within s.anchor.image.logBase s.anchor.image.logSize) ∨
  (s.start.part = .formatting ∧ ∃ j, s.anchor.format = some j ∧
    (within j.region.base j.region.size ∨ ∃ r, j.former = some r ∧ within r.base r.size))

/-- R70: a committed bank has an entry for the word. -/
def State.heldWord (s : State) (a : Addr) : Prop :=
  ∃ b, (s.bank b).state.committed = true ∧ ∃ e ∈ (s.bank b).entries, e.addr = a

/-- The entry at a position is the first one that is unapplied and meets the test. -/
def firstUnapplied (es : List Entry) (test : Entry → Prop) (i : Nat) (e : Entry) : Prop :=
  es[i]? = some e ∧ test e ∧ e.applied = false ∧ ∀ j < i, ∀ x, es[j]? = some x → ¬(test x ∧ x.applied = false)

/-- R73: what a promotion request for a word makes of a bank. -/
def Bank.promoted (k : Bank) (a : Addr) (k' : Bank) : Prop :=
  (k.state = .applying ∧ ∃ i e, firstUnapplied k.entries (·.addr = a) i e ∧ k' = { k with target := some i }) ∨
  ((k.state ≠ .applying ∨ ∀ e ∈ k.entries, e.addr = a → e.applied = true) ∧ k' = k)

/-- R13, R15: the refusal pulse after a refusal with an action. -/
def pulseAfter (action : RefusalAction) (pulse : Option Nat) : Option Nat :=
  match action with
  | .drop => pulse
  | .dropAndReset => some 100

/-- R12, R174, R175: an ACCESS_REFUSED record is offered, stamped with the clock. -/
def State.withRefused (s : State) (cause : Reason) (a : Addr) (entry : Option (Fin 8)) : State :=
  { s with mgmt := s.mgmt.offer ⟨.accessRefused, some cause, some a, none, entry, s.start.clock.millis⟩ }

/-- R178: a counter that has counted once: it stays at FFFFFFFFh. -/
def counted (c : DWord) : DWord := if c = 0xFFFFFFFF then 0xFFFFFFFF else c + 1

/-- R24: the context has entered VOID from OPEN: the bank in use is handed back, empty and FREE, and the timer is at 0. -/
def State.voidedOpen (s : State) (b : BankId) (r : VoidReason) : State :=
  { s.setBank b ⟨.free, none, [], none, none⟩ with
    txn := { s.txn with context := .voided r, openTimer := ⟨0, 0, false⟩ } }

/-- R24: the context has entered VOID from SLOT_WAIT with no write held awaiting a bank. -/
def State.voidedWaiting (s : State) (r : VoidReason) : State :=
  { s with txn := { s.txn with context := .voided r, openTimer := ⟨0, 0, false⟩ } }

/-- R11, R75: the held-write slot is empty and its timer stopped. -/
def State.slotEmptied (s : State) : State :=
  { s with host := { s.host with slot := none, holdTimer := { s.host.holdTimer with running := false } } }

/-- R24: the context has entered VOID from SLOT_WAIT, and the write held awaiting a bank is refused silently and counted. -/
def State.voidedHolding (s : State) (r : VoidReason) : State :=
  { s.slotEmptied with
    txn := { s.txn with context := .voided r, openTimer := ⟨0, 0, false⟩, refused := min 65535 (s.txn.refused + 1) } }

/-- R31, R33 to R35: a release has returned the context to IDLE and written the outcome record. -/
def State.released (s : State) (o : OutcomeRecord) : State :=
  { s with
    pins := { s.pins with txnHigh := false }
    txn := { s.txn with context := .idle, openTimer := ⟨0, 0, false⟩, refused := 0, outcome := o } }

/-- R36: a release answered FAILED has raised TERR, offered its record and been counted. -/
def State.reported (s : State) (reason : Reason) : State :=
  let m := s.mgmt.offer ⟨.transactionFailed, some reason, none, none, none, s.start.clock.millis⟩
  { s with
    txn := { s.txn with terr := true }
    mgmt := { m with counters := { m.counters with failed := counted m.counters.failed } } }

/-- R132, R133: the port is IDLE and the memory is the one given. -/
def State.portDone (s : State) (m : Memory) : State := { s with port := { s.port with inFlight := none }, mem := m }

/-- R137, R139: the waiting claim of `who` wins a grant. -/
def State.wins (s : State) (who : Claimant) : Prop :=
  let c := s.port.waiting
  let hostFirst := c.host ≠ none ∧ s.port.burst < s.mgmt.config.burstLimit
  match who with
  | .startup => c.startup ≠ none
  | .host => c.startup = none ∧ c.host ≠ none ∧
      (s.port.burst < s.mgmt.config.burstLimit ∨ (c.anchor = none ∧ c.log = none ∧ c.apply = none))
  | .anchor => c.startup = none ∧ c.anchor ≠ none ∧ ¬hostFirst
  | .log => c.startup = none ∧ c.anchor = none ∧ c.log ≠ none ∧ ¬hostFirst
  | .apply => c.startup = none ∧ c.anchor = none ∧ c.log = none ∧ c.apply ≠ none ∧ ¬hostFirst

/-- R144: the reset a command takes, with the straps it samples; the part must be HALTED for POWER_RESUME, and SOFT_RESET due and
takable. -/
def State.resetGiven (s : State) (c : Instr) (cause : ResetCause) (straps : Straps) : Prop :=
  match c with
  | .powerOn p => cause = .powerOn ∧ straps = p.straps
  | .resetPin x => cause = .resetPin ∧ straps = x
  | .powerResume x => cause = .powerResume ∧ straps = x ∧ s.start.part = .halted
  | .softReset x => cause = .soft ∧ straps = x ∧ s.mgmt.command.due = some 0x07 ∧ s.controllerWorks
  | _ => False

/-- R140, R141: what a reset leaves of the attached memory: a write in flight in HALTED has run to its end unless the supply
itself fails; any other write in flight leaves the lanes of its lane set at values nothing fixes. -/
def State.memoryAfter (s : State) (cause : ResetCause) (m : Memory) : Prop :=
  match s.port.inFlight with
  | none => m = s.mem
  | some f =>
    if f.access.write = false then m = s.mem
    else if s.start.part = .halted ∧ cause ≠ .powerOn then stored s.mem m f.access.addr f.access.lanes f.access.data
    else ∀ k, ¬(f.access.lanes.lower = true ∧ k = lowerKey f.access.addr) →
      ¬(f.access.lanes.upper = true ∧ k = upperKey f.access.addr) → readByte m k = readByte s.mem k

/-- R159, R40, R168: what the end of a start-up in a part state gives: HRST# released, the context from the level of TXN, the edit
table loaded from the live one; and then a cycle that waits on the host bus is taken. -/
def State.startupEnds (s : State) (part : PartState) (t : State) : Prop :=
  let u := { s with
    start := { s.start with part := part, phase := .done, drivesHrst := false }
    txn := { s.txn with context := if s.pins.txnHigh then .voided .reset else .idle, openTimer := ⟨0, 0, false⟩ }
    mgmt := { s.mgmt with edit := s.host.guards } }
  let waits := recognised s.pins.host ≠ none ∧ s.host.cycleTaken = false ∧ s.host.access = none ∧ s.host.slot = none
  (¬waits → t = u) ∧ (waits → t = u.takeCycle)

/-- R153, R154: what the end of the scan at its position gives: a closing write where one is needed, and RUN where none is. -/
def State.scanEnds (s : State) (t : State) : Prop :=
  let p := s.start.scan.position
  let q := s.start.scan.expected
  let u := { s with
    log := { s.log with head := p, used := 0 }
    anchor := { s.anchor with image := { s.anchor.image with tail := p, tailSeq := q } }
    txn := { s.txn with nextSeq := q }
    start := { s.start with report := { s.start.report with head := p, nextSeq := q } } }
  let closing := 0 < s.start.report.replayed ∨ s.start.report.copiesInvalid = 1
  (closing → s.anchor.write = none → t = { u with start := { u.start with phase := .closing } }.startWrite) ∧
  (¬closing → u.startupEnds .run t)

/-- R150: the test of image word `word`, the image having `count` entries and `head` being its ENTRY's first word. -/
def State.scanPasses (s : State) (word count : Nat) (head w : Word) : Prop :=
  let seq := s.start.scan.expected
  let addr : Addr := head.extractLsb' 0 4 ++ w
  (word = 0 ∧ w.extractLsb' 12 4 = 0xA#4) ∨
  (word = 1 ∧ w = seq.extractLsb' 16 16) ∨
  (word = 2 ∧ w = seq.extractLsb' 0 16) ∨
  (word = 3 ∧ 1 ≤ w.toNat ∧ w.toNat ≤ 256 ∧ s.start.scan.scanned + (3 * w.toNat + 8) ≤ s.anchor.image.logSize) ∨
  (4 ≤ word ∧ word < 4 + 3 * count ∧
    ((word - 4) % 3 = 0 → w.extractLsb' 12 4 = 0x5#4 ∧ w.extractLsb' 10 2 ≠ 0#2) ∧
    ((word - 4) % 3 = 1 → addr.toNat < s.memSize ∧ 128 ≤ addr.toNat ∧
      ¬(s.anchor.image.logBase ≤ addr.toNat ∧ addr.toNat < s.anchor.image.logBase + s.anchor.image.logSize))) ∨
  (4 ≤ word ∧ word = 4 + 3 * count ∧ w.extractLsb' 12 4 = 0xC#4) ∨
  (4 ≤ word ∧ word = 5 + 3 * count ∧ w = seq.extractLsb' 16 16) ∨
  (4 ≤ word ∧ word = 6 + 3 * count ∧ w = seq.extractLsb' 0 16) ∨
  (4 ≤ word ∧ 7 + 3 * count ≤ word ∧ w = s.start.scan.crc)

/-- R117: generation g is newer than h. -/
def isNewer (g h : DWord) : Prop := 1 ≤ (g - h).toNat ∧ (g - h).toNat ≤ 0x7FFFFFFF

/-- R117: the copy the start-up takes of two, by their failures and their generations. -/
def copyTaken (failA failB : Option Reason) (genA genB : DWord) : Copy → Prop
  | .a => failA = none ∧ (failB ≠ none ∨ ¬isNewer genB genA)
  | .b => failB = none ∧ (failA ≠ none ∨ isNewer genB genA)

/-- R171: a command whose byte was acknowledged is due once its transfer ends, unless the part is HALTED by then; R161: no transfer is
in progress any longer. -/
def State.transferEnded (s : State) (commanded : Bool) : State :=
  { s with mgmt := { s.mgmt with
    transfer := none
    command := if commanded = true ∧ s.start.part ≠ .halted then { s.mgmt.command with due := some s.mgmt.command.code }
      else s.mgmt.command } }

/-- R161: the target address the part answers at. -/
def State.addressed (s : State) (target : BitVec 7) : Prop := target.toNat = 0x34 + s.mgmt.adr.toNat

/-- R164, R166: the first data byte written to an item is refused whatever the state: the item is read-only, or the byte is an entry
select above 7 or a bank select above 1. -/
def firstByteRefused (item b : Byte) : Prop :=
  item.toNat ∈ [0x00, 0x01, 0x02, 0x03, 0x05, 0x08, 0x09, 0x0B, 0x0D] ∨
  (item.toNat ∈ [0x06, 0x07] ∧ 7 < b.toNat) ∨ (item.toNat = 0x0A ∧ 1 < b.toNat)

/-- R171: no command is due any longer. -/
def State.taken (s : State) : State := { s with mgmt := { s.mgmt with command := { s.mgmt.command with due := none } } }

/-- R172: the command status a take leaves. -/
def State.withStatus (s : State) (status : CommandStatus) (code : Byte) (reason : Option Reason) : State :=
  { s with mgmt := { s.mgmt with status := ⟨status, code, reason⟩ } }

end Sys2Proof.Machine
end

