-- ==== Sys2Proof/Certificates/Slice0/Obligations.lean ====
section
/-! DEFINITION. Certificates/Slice0/Obligations.lean: what is claimed of the model. A statement that gives the next state as an
update of the former one is its own frame: what the update does not name is as before. -/

section
open Sys2Proof Sys2Proof.Machine

/-! ## The block as a machine -/

/-- A step takes the command at the front of the queue, with the queue's rest. -/
def Obligations.StepTakesTheFrontCommand : Prop :=
  ∀ (s : State) (c : Instr) (rest : List Instr), s.pending = c :: rest → step s = exec c { s with pending := rest }

/-- R146, R29, R75, R15: what `n` microseconds of the timebase do outside HALTED: the clock goes on and wraps; the open timer and the
hold timer go on where they run, and stay at 65,535 ms and 65,535 µs; a refusal pulse has that much less left. On an empty queue, no
host cycle waiting, one microsecond of it passes, and what is then due is taken as its command takes it, in the order the model
chooses: the end of the pulse, the expiry of the hold timer, the expiry of the open timer. In HALTED the timebase is frozen and the
step changes nothing. The model's: that an idle step is a microsecond, and that order (log entries 4 and 5); that the clock and the
open timer each keep the microseconds of a millisecond begun (log entry 7); that the clock goes on in STARTUP with RST# low (log entry
23). -/
def Obligations.EmptyQueueAdvancesTheTimebase : Prop :=
  ∀ s : State,
    (∀ n, s.start.part ≠ .halted →
      let t := s.advance n
      t = { s with
        host := { s.host with holdTimer := t.host.holdTimer, pulse := s.host.pulse.map fun left => left - n }
        txn := { s.txn with openTimer := t.txn.openTimer }
        start := { s.start with clock := t.start.clock } } ∧
      t.start.clock.millis.toNat = (s.start.clock.millis.toNat + (s.start.clock.micros + n) / 1000) % 2 ^ 32 ∧
      t.start.clock.micros = (s.start.clock.micros + n) % 1000 ∧
      (s.txn.openTimer.running = false → t.txn.openTimer = s.txn.openTimer) ∧
      (s.txn.openTimer.running = true → t.txn.openTimer.running = true ∧ t.txn.openTimer.micros < 1000 ∧
        t.txn.openTimer.millis * 1000 + t.txn.openTimer.micros =
          min (65535 * 1000) (s.txn.openTimer.millis * 1000 + s.txn.openTimer.micros + n)) ∧
      (s.host.holdTimer.running = false → t.host.holdTimer = s.host.holdTimer) ∧
      (s.host.holdTimer.running = true → t.host.holdTimer = ⟨min 65535 (s.host.holdTimer.micros + n), true⟩)) ∧
    (s.pending = [] → s.start.part = .halted → step s = .next s) ∧
    (s.pending = [] → s.start.part ≠ .halted → ¬s.nextCycleWaits →
      let holdDue := fun t : State => t.mgmt.config.holdLimit.toNat ≤ t.host.holdTimer.micros
      let openDue := fun t : State => t.mgmt.config.openLimit.toNat * 1000 ≤ t.txn.openTimer.millis * 1000 + t.txn.openTimer.micros
      let t := s.advance 1
      ∃ u v,
        ((∃ n, s.host.pulse = some n ∧ n ≤ 1) → exec .refusalPulseEnd t = .next u) ∧
        ((∀ n, s.host.pulse = some n → 1 < n) → u = t) ∧
        (holdDue u → exec .holdExpired u = .next v) ∧ (¬holdDue u → v = u) ∧
        (openDue v → exec .openTimerExpiry v = step s) ∧ (¬openDue v → step s = .next v))

/-! ## Host port: writes -/

/-- R7: the tests in order, the memory size from MSZ[1:0] (R134), the log regions in force as R6 gives them (`State.logRegionHas`),
and the class a policy gives. -/
def Obligations.WriteClassFollowsTheTestsInOrder : Prop :=
  ∀ (s : State) (a : Addr),
    let size := 131072 * 2 ^ s.port.msz.toNat
    let inRegion := s.logRegionHas a
    let classOf := fun p : Policy => match p with
      | .plain => WriteClass.plain
      | .journaled => .journaled
      | .locked => .locked
    let inGuard := fun i : Fin 8 => (s.host.guards[i]).first ≤ a ∧ a ≤ (s.host.guards[i]).last
    (size ≤ a.toNat → s.classify a = ⟨.range, none, .drop⟩) ∧
    (a.toNat < size → a.toNat < 128 → s.classify a = ⟨.anchor, none, .drop⟩) ∧
    (a.toNat < size → 128 ≤ a.toNat → inRegion → s.classify a = ⟨.log, none, .drop⟩) ∧
    (∀ i, a.toNat < size → 128 ≤ a.toNat → ¬inRegion → inGuard i → (∀ j < i, ¬inGuard j) →
      s.classify a = ⟨classOf (s.host.guards[i]).policy, some i, (s.host.guards[i]).action⟩) ∧
    (a.toNat < size → 128 ≤ a.toNat → ¬inRegion → (∀ i, ¬inGuard i) → s.classify a = ⟨.plain, none, .drop⟩)

/-- R14: a write taken in VOID, whatever its address. -/
def Obligations.WriteInVoidIsRefusedSilently : Prop :=
  ∀ (s : State) (a : Addr) (d : Word) (l : Lanes) (oe : Bool) (r : VoidReason),
    s.hostTakes → noLane l = false → s.txn.context = .voided r →
    exec (.hostWrite a d l oe) s =
      .next { s.onBus (writeLines a d l oe) with txn := { s.txn with refused := min 65535 (s.txn.refused + 1) } }

/-- R8, R9: a PLAIN write in IDLE to a word no committed bank holds claims the memory port. R11, R70, R73, R75, R77: a PLAIN write in
IDLE to a word a committed bank holds enters the held-write slot, its timer starts, and a promotion is requested of a bank in
APPLYING; in SLOT_WAIT a PLAIN or JOURNALED write is held awaiting a bank, with no look at the hold condition and no promotion
request. -/
def Obligations.WriteIsPassedOrHeld : Prop :=
  ∀ (s : State) (a : Addr) (d : Word) (l : Lanes) (oe : Bool), s.hostTakes → noLane l = false →
    let t := s.onBus (writeLines a d l oe)
    (s.txn.context = .idle → (s.classify a).cls = .plain → ¬s.heldWord a →
      exec (.hostWrite a d l oe) s =
        .next { t with
          host := { t.host with access := some .passWrite }
          port := { s.port with waiting := { s.port.waiting with host := some ⟨true, a, l, d⟩ } } }) ∧
    (s.txn.context = .idle → (s.classify a).cls = .plain → s.heldWord a →
      ∃ k0 k1, s.bank0.promoted a k0 ∧ s.bank1.promoted a k1 ∧
        exec (.hostWrite a d l oe) s =
          .next { t with
            host := { t.host with slot := some ⟨a, d, l, .plain, (s.classify a).entry, .holdCondition⟩, holdTimer := ⟨0, true⟩ }
            bank0 := k0
            bank1 := k1 }) ∧
    (s.txn.context = .slotWait → (s.classify a).cls = .plain ∨ (s.classify a).cls = .journaled →
      exec (.hostWrite a d l oe) s =
        .next { t with host := { t.host with
          slot := some ⟨a, d, l, (s.classify a).cls, (s.classify a).entry, .bank⟩, holdTimer := ⟨0, true⟩ } })

/-- R8, R10, R45 to R47: in OPEN a PLAIN or JOURNALED write to a word without an entry makes the bank's last entry; R49, R27, R24,
R14: with 256 entries held it voids the transaction with OVERFLOW instead, and is refused silently and counted. -/
def Obligations.WriteInOpenMakesAnEntryOrOverflows : Prop :=
  ∀ (s : State) (a : Addr) (d : Word) (l : Lanes) (oe : Bool) (b : BankId),
    s.hostTakes → noLane l = false → s.txn.context = .opened b →
    (s.classify a).cls = .plain ∨ (s.classify a).cls = .journaled → (∀ e ∈ (s.bank b).entries, e.addr ≠ a) →
    let t := s.onBus (writeLines a d l oe)
    ((s.bank b).entries.length < 256 →
      exec (.hostWrite a d l oe) s =
        .next (t.setBank b { s.bank b with entries := (s.bank b).entries ++ [⟨a, maskLanes l d, l, false⟩] })) ∧
    (256 ≤ (s.bank b).entries.length →
      let u := t.voidedOpen b .overflow
      exec (.hostWrite a d l oe) s = .next { u with txn := { u.txn with refused := min 65535 (s.txn.refused + 1) } })

/-- R48: a write to a word that has an entry is merged into it, however full the bank. -/
def Obligations.WriteInOpenMergesIntoTheEntry : Prop :=
  ∀ (s : State) (a : Addr) (d : Word) (l : Lanes) (oe : Bool) (b : BankId) (i : Nat) (e : Entry),
    s.hostTakes → noLane l = false → s.txn.context = .opened b →
    (s.classify a).cls = .plain ∨ (s.classify a).cls = .journaled →
    ((s.bank b).entries.map (·.addr)).Nodup → (s.bank b).entries[i]? = some e → e.addr = a →
    let data := joinBytes (if l.upper then upperByte d else upperByte e.data) (if l.lower then lowerByte d else lowerByte e.data)
    let merged : Entry := { e with data := data, lanes := ⟨e.lanes.upper || l.upper, e.lanes.lower || l.lower⟩ }
    exec (.hostWrite a d l oe) s =
      .next ((s.onBus (writeLines a d l oe)).setBank b { s.bank b with entries := (s.bank b).entries.set i merged })

/-- R8, R12, R13, R27: outside VOID a write of class RANGE, ANCHOR or LOG is refused with its class's cause and action DROP; in IDLE
a JOURNALED write is refused UNJOURNALED, and in every such context a LOCKED write LOCKED, each with its entry's action; a LOCKED
write in OPEN or SLOT_WAIT voids the transaction with REFUSED_WRITE. R175: a record offered joins the queue at its end while fewer than 16
are held; at 16 it is not stored and the dropped count rises, to 255 at most. -/
def Obligations.RefusedWriteOffersItsRecord : Prop :=
  (∀ (m : ManagementPort) (r : FaultRecord),
    (m.queue.length < 16 → m.offer r = { m with queue := m.queue ++ [r] }) ∧
    (16 ≤ m.queue.length → m.offer r = { m with dropped := min 255 (m.dropped + 1) })) ∧
  ∀ (s : State) (a : Addr) (d : Word) (l : Lanes) (oe : Bool), s.hostTakes → noLane l = false →
    let refused := fun (cause : Reason) (entry : Option (Fin 8)) => (s.onBus (writeLines a d l oe)).withRefused cause a entry
    let acted := fun (u : State) (action : RefusalAction) =>
      { u with host := { u.host with pulse := pulseAfter action s.host.pulse } }
    let gives := fun t : State => exec (.hostWrite a d l oe) s = .next t
    ((∀ r, s.txn.context ≠ .voided r) →
      (s.classify a = ⟨.range, none, .drop⟩ → gives (refused .range none)) ∧
      (s.classify a = ⟨.anchor, none, .drop⟩ → gives (refused .anchor none)) ∧
      (s.classify a = ⟨.log, none, .drop⟩ → gives (refused .log none))) ∧
    ∀ entry action,
      (s.classify a = ⟨.journaled, entry, action⟩ → s.txn.context = .idle → gives (acted (refused .unjournaled entry) action)) ∧
      (s.classify a = ⟨.locked, entry, action⟩ →
        (s.txn.context = .idle → gives (acted (refused .locked entry) action)) ∧
        (∀ b, s.txn.context = .opened b → gives (acted ((refused .locked entry).voidedOpen b .refusedWrite) action)) ∧
        (s.txn.context = .slotWait → gives (acted ((refused .locked entry).voidedWaiting .refusedWrite) action)))

/-! ## Host port: reads, cycles and completions -/

/-- R17, tests 1 to 3, and R18: a read above the memory size is refused with FFFFh; a read of the anchor area or of a log region
in force claims one memory read of its lanes. -/
def Obligations.ReadOutsideHomeMemory : Prop :=
  ∀ (s : State) (a : Addr) (l : Lanes), s.hostTakes → noLane l = false →
    let t := s.onBus (readLines a l s.pins.host.data)
    (131072 * 2 ^ s.port.msz.toNat ≤ a.toNat →
      exec (.hostRead a l) s = .next ({ t with host := { t.host with driven := some 0xFFFF } }.withRefused .rangeRead a none)) ∧
    (a.toNat < 131072 * 2 ^ s.port.msz.toNat →
      a.toNat < 128 ∨ s.logRegionHas a →
      exec (.hostRead a l) s =
        .next { t with
          host := { t.host with access := some (.read l 0 l) }
          port := { s.port with waiting := { s.port.waiting with host := some ⟨false, a, l, 0⟩ } } })

/-- R17, test 4, R18, R66 to R68: a forwarded read drives the lanes its sources hold, 00h outside its lanes, when they hold every
lane it asks for, and otherwise claims a memory read of the lanes still needed. -/
def Obligations.ForwardedReadTakesItsLanes : Prop :=
  ∀ (s : State) (a : Addr) (l : Lanes), s.hostTakes → noLane l = false →
    128 ≤ a.toNat → a.toNat < 131072 * 2 ^ s.port.msz.toNat →
    ¬s.logRegionHas a →
    let t := s.onBus (readLines a l s.pins.host.data)
    let es := s.sources a
    let upper := es.find? (·.lanes.upper)
    let lower := es.find? (·.lanes.lower)
    let found := joinBytes (if l.upper then (upper.map (upperByte ·.data)).getD 0 else 0)
      (if l.lower then (lower.map (lowerByte ·.data)).getD 0 else 0)
    let need : Lanes := ⟨l.upper && upper.isNone, l.lower && lower.isNone⟩
    exec (.hostRead a l) s = .next
      (if need.upper || need.lower then
        { t with
          host := { t.host with access := some (.read l found need) }
          port := { s.port with waiting := { s.port.waiting with host := some ⟨false, a, need, 0⟩ } } }
      else { t with host := { t.host with driven := some found } })

/-- R66, R67: the sources of a word: the entry of the bank in use, then the unapplied entries of the committed banks, the higher
sequence number first. -/
def Obligations.SourcesAreNewestFirst : Prop :=
  ∀ (s : State) (a : Addr) (e : Entry), s.banksSound → s.contextSound →
    (e ∈ s.sources a ↔ ∃ b, e ∈ (s.bank b).entries ∧ e.addr = a ∧
      (s.txn.context = .opened b ∨ ((s.bank b).state.committed = true ∧ e.applied = false))) ∧
    (∀ b, s.txn.context = .opened b → e ∈ (s.bank b).entries → e.addr = a → (s.sources a).head? = some e) ∧
    (∀ b, (s.bank b).state.committed = true → (s.bank b.other).state.committed = true →
      (s.bank b.other).rank < (s.bank b).rank → e ∈ (s.bank b).entries → e.addr = a → e.applied = false →
      (s.sources a).head? = some e)

/-- R10, R47, R66: a write captured in OPEN is what a read of the same lanes of the same word gives back. -/
def Obligations.CapturedWriteIsReadBack : Prop :=
  ∀ (s : State) (a : Addr) (d : Word) (l : Lanes) (oe : Bool) (b : BankId),
    s.hostTakes → noLane l = false → s.txn.context = .opened b →
    (s.classify a).cls = .plain ∨ (s.classify a).cls = .journaled →
    (∃ e ∈ (s.bank b).entries, e.addr = a) ∨ (s.bank b).entries.length < 256 →
    ∃ t u v, exec (.hostWrite a d l oe) s = .next t ∧ exec .hostCycleEnd t = .next u ∧ exec (.hostRead a l) u = .next v ∧
      v.host.driven = some (maskLanes l d) ∧ v.port = s.port ∧ v.mem = s.mem

/-- R2, R3: a cycle presented while an access is in progress, or in STARTUP, RECOVERY or HALTED, is held with HWAIT# low and is not taken;
and a cycle that has waited on the bus is taken as the same cycle presented to a port that takes it, in an event of its own (R135), which is
the next MEMORY_CLAIM of the host port or the next step on an empty queue: the model's choice (log entry 12). The level of HWAIT# is as log
entry 13 reads it. R1: a cycle whose lane set is none has no effect but the 0000h a read of it drives; R1 to R3: the end of the host's cycle
frees the bus and withdraws nothing that was taken. -/
def Obligations.CyclesAreHeldTakenAndEnded : Prop :=
  (∀ s : State, s.hostTakes → s.host.cycleTaken = false → s.host.driven = none →
    let taken := fun c : Instr =>
      (s.port.waiting.host = none → (∀ f, s.port.inFlight = some f → f.who ≠ .host) → exec (.memoryClaim .host) s = exec c s) ∧
      (s.pending = [] → step s = exec c s)
    (∀ a d l oe, s.pins.host = writeLines a d l oe → taken (.hostWrite a d l oe)) ∧
    (∀ a l, s.pins.host = readLines a l s.pins.host.data → taken (.hostRead a l))) ∧
  (∀ (s : State) (c : Instr) (lines : HostLines),
    ((∃ a d l oe, c = .hostWrite a d l oe ∧ lines = writeLines a d l oe) ∨
      (∃ a l, c = .hostRead a l ∧ lines = readLines a l s.pins.host.data)) →
    ¬s.controllerWorks ∨ s.host.access ≠ none ∨ s.host.slot ≠ none →
    ∃ t, exec c s = .next t ∧ t.hwaitLow = true ∧
      t = { s with pins := { s.pins with host := lines }, host := { s.host with cycleTaken := false, driven := none } }) ∧
  ∀ (s : State) (a : Addr) (d : Word) (oe : Bool),
    (s.hostTakes →
      exec (.hostWrite a d ⟨false, false⟩ oe) s = .next (s.onBus (writeLines a d ⟨false, false⟩ oe)) ∧
      let t := s.onBus (readLines a ⟨false, false⟩ s.pins.host.data)
      exec (.hostRead a ⟨false, false⟩) s = .next { t with host := { t.host with driven := some 0 } }) ∧
    exec .hostCycleEnd s =
      .next { s with
        pins := { s.pins with host := { s.pins.host with ce := false, we := false, oe := false } }
        host := { s.host with cycleTaken := false, driven := none } }

/-- R9, R71, R133, R140: the memory write of a PASS write, or of a held write whose hold has ended, lands on its lanes alone and
the host access completes, in HALTED too. -/
def Obligations.HostWriteLandsAndCompletes : Prop :=
  ∀ (s : State) (a : Addr) (l : Lanes) (d : Word), memoryWf s.mem = true →
    s.port.inFlight = some ⟨.host, ⟨true, a, l, d⟩⟩ →
    (s.host.access = some .passWrite →
      ∃ m, stored s.mem m a l d ∧
        exec .hostAccessCompletion s = .next { s.portDone m with host := { s.host with access := none } }) ∧
    (∀ h, s.host.access = none → s.host.slot = some h → h.awaits = .port →
      ∃ m, stored s.mem m a l d ∧ exec .hostAccessCompletion s = .next (s.portDone m).slotEmptied)

/-- R18, R68, R69: a read completes with the lanes found at its lookups and the others from memory, driven while its cycle lasts, which is
the model's reading of when HD is driven (log entry 13, DEDUCED). -/
def Obligations.HostReadCompletes : Prop :=
  ∀ (s : State) (a : Addr) (l claimed need : Lanes) (found : Word),
    s.port.inFlight = some ⟨.host, ⟨false, a, claimed, 0⟩⟩ → s.host.access = some (.read l found need) →
    let live := s.pins.host.ce = true ∧ (s.pins.host.we = true ∨ s.pins.host.oe = true) ∧ s.host.cycleTaken = true
    let word := joinBytes (if need.upper then readByte s.mem (2 * a.toNat + 1) else upperByte found)
      (if need.lower then readByte s.mem (2 * a.toNat) else lowerByte found)
    let t := s.portDone s.mem
    (live → exec .hostAccessCompletion s = .next { t with host := { s.host with access := none, driven := some word } }) ∧
    (¬live → exec .hostAccessCompletion s = .next { t with host := { s.host with access := none } })

/-- R76, R28, R75: the expiry of the hold timer refuses the held write with HOLD_EXPIRED and no action; a write held awaiting a bank voids
the transaction with NO_SLOT, uncounted. No limit, a stopped timer or a halt leaves nothing to expire. R15: the refusal pulse ends when its
time has passed, and lasts in HALTED; with no pulse in progress none ends. That HOLD_EXPIRED and REFUSAL_PULSE_END themselves run the whole
timebase by the time left before they take the event, and change nothing where nothing expires, is the model's choice (log entry 5). -/
def Obligations.TimersOfTheHostPort : Prop :=
  ∀ s : State,
    (∀ h, s.controllerWorks → s.host.slot = some h → s.host.holdTimer.running = true → s.mgmt.config.holdLimit ≠ 0 →
      let t := s.advance (s.mgmt.config.holdLimit.toNat - s.host.holdTimer.micros)
      (h.awaits = .holdCondition →
        exec .holdExpired s = .next (t.slotEmptied.withRefused .holdExpired h.addr h.entry)) ∧
      (h.awaits = .bank → s.txn.context = .slotWait →
        exec .holdExpired s = .next ((t.slotEmptied.withRefused .holdExpired h.addr h.entry).voidedWaiting .noSlot))) ∧
    (¬s.controllerWorks ∨ s.host.holdTimer.running = false ∨ s.mgmt.config.holdLimit = 0 → exec .holdExpired s = .next s) ∧
    (s.host.pulse = none → exec .refusalPulseEnd s = .next s) ∧
    ∀ left, s.host.pulse = some left →
      (s.start.part ≠ .halted →
        exec .refusalPulseEnd s = .next { s.advance left with host := { (s.advance left).host with pulse := none } }) ∧
      (s.start.part = .halted → exec .refusalPulseEnd s = .next s)

/-! ## Transaction lines -/

/-- R22, R16: a rise of TXN in IDLE: TERR falls, the open timer starts from 0, and the context opens on the lower-numbered FREE
bank in RUN, waits where none is FREE and in FORMATTING, and is VOID in UNFORMATTED; a refusal pulse in progress then voids the
OPEN or SLOT_WAIT context with HOST_RESET. -/
def Obligations.RiseOfTxnBeginsATransaction : Prop :=
  ∀ (s : State), s.txn.context = .idle →
    let t := { s with
      pins := { s.pins with txnHigh := true }, txn := { s.txn with terr := false, openTimer := ⟨0, 0, true⟩ } }
    let opened := fun b : BankId =>
      { t.setBank b ⟨.capture, none, [], none, none⟩ with txn := { t.txn with context := .opened b } }
    let free := fun b : BankId => (s.bank b).state = .free ∧ (b = .b1 → s.bank0.state ≠ .free)
    let waits := s.start.part = .formatting ∨ (s.start.part = .run ∧ s.bank0.state ≠ .free ∧ s.bank1.state ≠ .free)
    (∀ b, s.start.part = .run → free b → s.host.pulse = none → exec .txnRise s = .next (opened b)) ∧
    (∀ b, s.start.part = .run → free b → s.host.pulse ≠ none →
      exec .txnRise s = .next ((opened b).voidedOpen b .hostReset)) ∧
    (waits → s.host.pulse = none → exec .txnRise s = .next { t with txn := { t.txn with context := .slotWait } }) ∧
    (waits → s.host.pulse ≠ none → (∀ h, s.host.slot = some h → h.awaits ≠ .bank) →
      exec .txnRise s = .next (t.voidedWaiting .hostReset)) ∧
    (s.start.part = .unformatted → exec .txnRise s = .next (t.voidedWaiting .unformatted))

/-- R32, R31, R35: a release in OPEN that none of the checks before refuses is ACCEPTED. -/
def Obligations.ReleaseIsAccepted : Prop :=
  ∀ (s : State) (b : BankId), s.controllerWorks → s.txn.context = .opened b →
    let n := (s.bank b).entries.length
    0 < n → 3 * n + 8 ≤ s.anchor.image.logSize → s.txn.nextSeq ≠ 0 →
    let t := (s.setBank b { s.bank b with state := .logWait, seq := some s.txn.nextSeq }).released
      ⟨.accepted, none, some s.txn.nextSeq, some n, some 0⟩
    let u := { t with
      txn := { t.txn with nextSeq := s.txn.nextSeq + 1 }
      mgmt := { s.mgmt with counters := { s.mgmt.counters with accepted := counted s.mgmt.counters.accepted } } }
    exec .release s = .next u ∧ u.tbsyHigh = true

/-- R31, checks 1 to 3, R35, R36, R56: a release in OPEN answered EMPTY, FAILED LOG_TOO_SMALL or FAILED SEQUENCE_END empties the
bank; R33: a release in SLOT_WAIT is EMPTY, or FAILED NO_SLOT where a write was held awaiting a bank. -/
def Obligations.ReleaseThatCommitsNothing : Prop :=
  ∀ (s : State), s.controllerWorks →
    (∀ b, s.txn.context = .opened b →
      let n := (s.bank b).entries.length
      let t := s.setBank b ⟨.free, none, [], none, none⟩
      let fails := fun reason => ((t.released ⟨.failed, some reason, none, some n, some 0⟩).reported reason)
      (n = 0 → exec .release s = .next (t.released ⟨.empty, none, none, some 0, some 0⟩)) ∧
      (0 < n → s.anchor.image.logSize < 3 * n + 8 → exec .release s = .next (fails .logTooSmall)) ∧
      (0 < n → 3 * n + 8 ≤ s.anchor.image.logSize → s.txn.nextSeq = 0 → exec .release s = .next (fails .sequenceEnd))) ∧
    (s.txn.context = .slotWait →
      ((∀ h, s.host.slot = some h → h.awaits ≠ .bank) →
        exec .release s = .next (s.released ⟨.empty, none, none, some 0, some 0⟩)) ∧
      (∀ h, s.host.slot = some h → h.awaits = .bank →
        exec .release s =
          .next (((s.slotEmptied.withRefused .noSlot h.addr h.entry).released
            ⟨.failed, some .noSlot, none, some 0, some 0⟩).reported .noSlot)))

/-- R34: a release in VOID is answered FAILED with the void reason of the same name. -/
def Obligations.ReleaseOfAVoidTransaction : Prop :=
  ∀ (s : State) (r : VoidReason), s.controllerWorks → s.txn.context = .voided r →
    let reason : Reason := match r with
      | .unformatted => .unformatted
      | .aborted => .aborted
      | .expired => .expired
      | .overflow => .overflow
      | .refusedWrite => .refusedWrite
      | .hostReset => .hostReset
      | .noSlot => .noSlot
      | .reset => .reset
    exec .release s = .next ((s.released ⟨.failed, some reason, none, some 0, some s.txn.refused⟩).reported reason)

/-- R25, R24: a rise of ABT in OPEN and in SLOT_WAIT voids with ABORTED and releases nothing; in IDLE and in VOID it is ignored;
and the release that follows a void is answered FAILED ABORTED. -/
def Obligations.AbtRiseVoidsTheTransaction : Prop :=
  ∀ (s : State), s.controllerWorks →
    (∀ b, s.txn.context = .opened b → exec .abtRise s = .next (s.voidedOpen b .aborted)) ∧
    (s.txn.context = .slotWait →
      ((∀ h, s.host.slot = some h → h.awaits ≠ .bank) → exec .abtRise s = .next (s.voidedWaiting .aborted)) ∧
      (∀ h, s.host.slot = some h → h.awaits = .bank → exec .abtRise s = .next (s.voidedHolding .aborted))) ∧
    (s.txn.context = .idle ∨ (∃ r, s.txn.context = .voided r) → exec .abtRise s = .next s) ∧
    ((∃ b, s.txn.context = .opened b) ∨ s.txn.context = .slotWait →
      ∃ t u, exec .abtRise s = .next t ∧ exec .release t = .next u ∧ u.txn.context = .idle ∧
        u.txn.outcome.result = .failed ∧ u.txn.outcome.reason = some .aborted)

/-- R30, R29, R24: the expiry of the open timer voids with EXPIRED; with no limit, a stopped timer, or the context in IDLE or VOID, nothing
expires. That OPEN_TIMER_EXPIRY itself runs the whole timebase to the limit before it takes the event, and changes nothing where nothing
expires, is the model's choice (log entry 5). -/
def Obligations.OpenTimerExpiryVoidsTheTransaction : Prop :=
  ∀ (s : State),
    (s.controllerWorks → s.txn.openTimer.running = true → s.mgmt.config.openLimit ≠ 0 →
      let t := s.advance (s.mgmt.config.openLimit.toNat * 1000 - (s.txn.openTimer.millis * 1000 + s.txn.openTimer.micros))
      (∀ b, s.txn.context = .opened b → exec .openTimerExpiry s = .next (t.voidedOpen b .expired)) ∧
      (s.txn.context = .slotWait →
        ((∀ h, s.host.slot = some h → h.awaits ≠ .bank) → exec .openTimerExpiry s = .next (t.voidedWaiting .expired)) ∧
        (∀ h, s.host.slot = some h → h.awaits = .bank → exec .openTimerExpiry s = .next (t.voidedHolding .expired)))) ∧
    (¬s.controllerWorks ∨ s.txn.openTimer.running = false ∨ s.mgmt.config.openLimit = 0 ∨ s.txn.context = .idle ∨
      (∃ r, s.txn.context = .voided r) → exec .openTimerExpiry s = .next s)

/-! ## Output lines -/

/-- R177, R38, R39, R37: ALERT#, SLOT, TBSY and TERR. R15, R159: HRST#. R2 to R4: HWAIT# (as log entry 13 reads them). R131 to R133:
the memory-side signals, a name for each being true where the signal is asserted. -/
def Obligations.OutputLinesFollowTheState : Prop :=
  ∀ s : State,
    let maskBit := fun k : FaultKind => match k with
      | .accessRefused => 0
      | .transactionFailed => 1
      | .anchorCopyInvalid => 2
      | .partialImageDiscarded => 3
    (s.alertLow = true ↔ ∃ r ∈ s.mgmt.queue, s.mgmt.config.alertMask.getLsbD (maskBit r.kind) = true) ∧
    (s.slotHigh = true ↔ s.start.part = .run ∧ s.txn.context = .idle ∧ ∃ b, (s.bank b).state = .free) ∧
    (s.tbsyHigh = true ↔ ∃ b, (s.bank b).state = .logWait ∨ (s.bank b).state = .logging) ∧
    s.terrHigh = s.txn.terr ∧
    (s.hrstLow = true ↔ s.start.drivesHrst = true ∨ s.host.pulse ≠ none) ∧
    (s.hwaitLow = true ↔ s.start.drivesHrst = true ∨ s.host.access ≠ none ∨ s.host.slot ≠ none ∨
      (recognised s.pins.host ≠ none ∧ s.host.cycleTaken = false)) ∧
    (s.port.inFlight = none → s.memorySignals = ⟨s.port.lastAddr, false, false, false, false, false, none⟩) ∧
    ∀ who a l d,
      (s.port.inFlight = some ⟨who, ⟨true, a, l, d⟩⟩ → s.memorySignals = ⟨a, true, false, true, l.upper, l.lower, some d⟩) ∧
      (s.port.inFlight = some ⟨who, ⟨false, a, l, d⟩⟩ → s.memorySignals = ⟨a, true, true, false, l.upper, l.lower, none⟩)

/-! ## Memory port -/

/-- R135: a claimant with a claim waiting or in flight makes none; R92, R81, R86: the log writer in RUN claims its next image word at
its place in the log, taking BEGIN and ENTRY words into the CRC, and with no image to write, or outside RUN, it claims none; R120, R122:
the anchor writer claims its next snapshot word, and with no write in flight none; R139, R147: the start-up controller in STARTUP claims
its next anchor word once RST# is high, none while it is low (R144), none while it waits for the closing write (R154), and none once its
work has ended; R102: the apply engine has claimed at its choice (log entry 11); R2: the host port, with no cycle waiting on the bus that
it can take, has none to make (log entry 12). That a MEMORY_CLAIM of a claimant with nothing to claim changes nothing is the model's
choice (log entry 1). -/
def Obligations.ClaimsOfTheEngines : Prop :=
  ∀ (s : State) (who : Claimant),
    (s.claims who → exec (.memoryClaim who) s = .next s) ∧
    (who = .apply → exec (.memoryClaim who) s = .next s) ∧
    (who = .host → ¬s.nextCycleWaits → exec (.memoryClaim who) s = .next s) ∧
    (who = .log → s.log.job = none ∨ s.start.part ≠ .run → exec (.memoryClaim who) s = .next s) ∧
    (who = .anchor → s.anchor.write = none ∨ s.start.part = .startup ∨ s.start.part = .unformatted ∨ s.start.part = .halted →
      exec (.memoryClaim who) s = .next s) ∧
    (who = .startup → (s.start.part = .startup ∧ s.pins.rstHigh = false) ∨ s.start.phase = .closing ∨ s.start.phase = .done ∨
      (s.start.part ≠ .startup ∧ s.start.part ≠ .recovery) → exec (.memoryClaim who) s = .next s) ∧
    (¬s.claims who →
      (∀ b n q i, who = .log → s.start.part = .run → s.log.job = some ⟨b, n⟩ → (s.bank b).seq = some q →
        (s.bank b).image = some i →
        let es := (s.bank b).entries
        let word := (imageBody q es ++ [0xC000, q.extractLsb' 16 16, q.extractLsb' 0 16, s.log.crc]).getD n 0
        let place := BitVec.ofNat 20 (s.anchor.image.logBase + (i.start + n) % s.anchor.image.logSize)
        exec (.memoryClaim who) s = .next { s with
          log := { s.log with crc := if n < 3 * es.length + 4 then crcWord s.log.crc word else s.log.crc }
          port := { s.port with waiting := { s.port.waiting with log := some ⟨true, place, ⟨true, true⟩, word⟩ } } }) ∧
      (∀ w, who = .anchor → (s.start.part = .run ∨ s.start.part = .formatting ∨ s.start.part = .recovery) →
        s.anchor.write = some w →
        let place := BitVec.ofNat 20 ((match w.target with | .a => 0 | .b => 64) + w.completed)
        exec (.memoryClaim who) s = .next { s with
          port := { s.port with waiting := { s.port.waiting with
            anchor := some ⟨true, place, ⟨true, true⟩, w.snapshot.getD w.completed 0⟩ } } }) ∧
      (∀ words, who = .startup → s.start.part = .startup → s.pins.rstHigh = true → s.start.phase = .anchors words →
        words.length < 128 →
        exec (.memoryClaim who) s = .next { s with
          port := { s.port with waiting := { s.port.waiting with
            startup := some ⟨false, BitVec.ofNat 20 words.length, ⟨true, true⟩, 0⟩ } } }))

/-- R137, R136: the claim that wins leaves the waiting claims and is in flight; R138: the host burst count counts the host's grants in a row
that kept an engine waiting, and every other grant sets it to 0. R136, R140: no grant is made while an access is in flight, in a halt, or
with no claim waiting. That GRANT then changes nothing is the model's choice (log entry 1), and so is that a claim for a word the memory
does not have, which R134 excludes, faults (log entry 22). -/
def Obligations.GrantGoesToTheWinner : Prop :=
  ∀ (s : State),
    (∀ who x, s.port.inFlight = none → s.port.halt = false → s.wins who → s.port.waiting.get who = some x →
      let engine := s.port.waiting.anchor ≠ none ∨ s.port.waiting.log ≠ none ∨ s.port.waiting.apply ≠ none
      (x.addr.toNat < s.memSize →
        ∃ n, (who = .host → engine → n = s.port.burst + 1) ∧ (who = .host → ¬engine → n = 0) ∧ (who ≠ .host → n = 0) ∧
          exec .grant s = .next { s with port := { s.port with
            inFlight := some ⟨who, x⟩, waiting := s.port.waiting.set who none, burst := n, lastAddr := x.addr } }) ∧
      (s.memSize ≤ x.addr.toNat → exec .grant s = .fault .absentWord)) ∧
    (s.port.inFlight ≠ none ∨ s.port.halt = true ∨ (∀ who, s.port.waiting.get who = none) → exec .grant s = .next s)

/-! ## Log writer -/

/-- R91: the log writer takes a bank. -/
def Obligations.LogWriterTakesTheOldestBank : Prop :=
  ∀ (s : State) (b : BankId), s.start.part = .run → s.log.job = none → (s.bank b).state = .logWait →
    ((s.bank b.other).state = .logWait → (s.bank b).rank < (s.bank b.other).rank) →
    let z := 3 * (s.bank b).entries.length + 8
    (s.log.used + z ≤ s.anchor.image.logSize →
      exec .logWriterTake s =
        .next { s.setBank b { s.bank b with state := .logging, image := some ⟨s.log.head, z⟩ } with
          log := ⟨some ⟨b, 0⟩, (s.log.head + z) % s.anchor.image.logSize, s.log.used + z, 0xFFFF⟩ }) ∧
    (s.anchor.image.logSize < s.log.used + z → exec .logWriterTake s = .next s)

/-- R92, R94, R97: an image word lands with both lanes; in RUN the word before the last is followed by the next, and COMMIT word 3
is the durability point; in HALTED the writer does not advance. -/
def Obligations.ImageWordLands : Prop :=
  ∀ (s : State) (a : Addr) (w : Word) (b : BankId) (n : Nat), memoryWf s.mem = true →
    s.port.inFlight = some ⟨.log, ⟨true, a, ⟨true, true⟩, w⟩⟩ → s.log.job = some ⟨b, n⟩ →
    ∃ m, stored s.mem m a ⟨true, true⟩ w ∧
      (s.start.part = .run → n + 1 ≠ 3 * (s.bank b).entries.length + 8 →
        exec .imageWordCompletion s = .next { s.portDone m with log := { s.log with job := some ⟨b, n + 1⟩ } }) ∧
      (s.start.part = .run → n + 1 = 3 * (s.bank b).entries.length + 8 →
        exec .imageWordCompletion s =
          .next { (s.portDone m).setBank b { s.bank b with state := .applyWait } with
            log := { s.log with job := none }
            mgmt := { s.mgmt with counters := { s.mgmt.counters with durable := counted s.mgmt.counters.durable } } }) ∧
      (s.start.part = .halted → exec .imageWordCompletion s = .next (s.portDone m))

/-! ## Apply engine -/

/-- R101, R73: the apply engine takes the oldest bank in APPLY_WAIT, and a promotion is requested for a write held awaiting the hold
condition. That the request is made in the take itself, so before the engine's first choice, is the model's reading (log entry 17, DEDUCED).
-/
def Obligations.ApplyEngineTakesTheOldestBank : Prop :=
  ∀ (s : State) (b : BankId), s.start.part = .run → s.apply.bank = none → (s.bank b).state = .applyWait →
    ((s.bank b.other).state = .applyWait ∨ (s.bank b.other).state = .applying →
      (s.bank b).rank < (s.bank b.other).rank) →
    let k := { s.bank b with state := .applying, target := none }
    let taken := fun k' : Bank => { s.setBank b k' with apply := ⟨some b, none⟩ }
    ((∀ h, s.host.slot = some h → h.awaits ≠ .holdCondition) → exec .applyTake s = .next (taken k)) ∧
    (∀ h, s.host.slot = some h → h.awaits = .holdCondition →
      ∃ k', k.promoted h.addr k' ∧ exec .applyTake s = .next (taken k'))

/-- R102, R103: the entry chosen is the promotion target, or else the first unapplied one, and its home write is claimed. -/
def Obligations.ApplyEngineChoosesAnEntry : Prop :=
  ∀ (s : State) (b : BankId) (i : Nat) (e : Entry),
    s.start.part = .run → s.apply.bank = some b → s.apply.inFlight = none → s.port.waiting.apply = none →
    (∀ f, s.port.inFlight = some f → f.who ≠ .apply) →
    ((s.bank b).target = some i ∧ (s.bank b).entries[i]? = some e) ∨
      ((s.bank b).target = none ∧ firstUnapplied (s.bank b).entries (fun _ => True) i e) →
    exec .applyChoice s = .next { s with
      apply := { s.apply with inFlight := some i }
      port := { s.port with waiting := { s.port.waiting with apply := some ⟨true, e.addr, e.lanes, e.data⟩ } } }

/-- R104, R60: a home write lands on its entry's lanes, the entry is applied, and a target on it is absent; R105, R120: with no entry
left unapplied the bank is RETIRING, the tail of the in-part image passes its image, the engine is IDLE and an anchor write is
requested; R110: in HALTED nothing but memory and the port changes. -/
def Obligations.HomeWriteLands : Prop :=
  ∀ (s : State) (a : Addr) (l : Lanes) (w : Word) (b : BankId) (i : Nat) (e : Entry),
    memoryWf s.mem = true → s.port.inFlight = some ⟨.apply, ⟨true, a, l, w⟩⟩ → s.apply = ⟨some b, some i⟩ →
    (s.bank b).entries[i]? = some e → e.applied = false →
    ∃ m, stored s.mem m a l w ∧
      let es := (s.bank b).entries.set i { e with applied := true }
      let target := if (s.bank b).target = some i then none else (s.bank b).target
      (s.start.part = .run → (s.bank b).appliedCount + 1 < (s.bank b).entries.length →
        exec .homeWriteCompletion s =
          .next { (s.portDone m).setBank b { s.bank b with entries := es, target := target } with apply := ⟨some b, none⟩ }) ∧
      (∀ p q, s.start.part = .run → (s.bank b).appliedCount + 1 = (s.bank b).entries.length → (s.bank b).image = some p →
        (s.bank b).seq = some q →
        let t := { (s.portDone m).setBank b { s.bank b with state := .retiring, entries := es, target := none } with
          apply := ⟨none, none⟩
          anchor := { s.anchor with image := { s.anchor.image with
            tail := (p.start + p.size) % s.anchor.image.logSize, tailSeq := q + 1 } } }
        (s.anchor.write ≠ none → exec .homeWriteCompletion s = .next { t with anchor := { t.anchor with pending := true } }) ∧
        (s.anchor.write = none → exec .homeWriteCompletion s = .next t.startWrite)) ∧
      (s.start.part = .halted → exec .homeWriteCompletion s = .next (s.portDone m))

/-! ## Anchor writer -/

/-- R121, R107: what an anchor write fixes when it starts, whatever event starts it: the copy other than the last written, the generation
one higher, the image as it stands, the banks then in RETIRING, and the command no earlier write has carried. R120: a pending write starts
as PENDING_WRITE_START is taken. -/
def Obligations.AnchorWriteStarts : Prop :=
  ∀ (s : State),
    let target : Copy := if s.anchor.lastCopy = some .a then .b else .a
    let carried := if s.anchor.format.isSome then some Carried.format else if s.anchor.guardsDue then some .applyGuards else none
    s.startWrite = { s with anchor := { s.anchor with
      write := some ⟨target, s.anchor.generation + 1, copySnapshot s.anchor.image (s.anchor.generation + 1), 0,
        decide (s.bank0.state = .retiring), decide (s.bank1.state = .retiring), carried⟩
      pending := false
      guardsDue := false } } ∧
    (s.start.part = .run ∨ s.start.part = .formatting ∨ s.start.part = .recovery → s.anchor.pending = true → s.anchor.write = none →
      exec .pendingWriteStart s = .next s.startWrite)

/-- R122: a word of an anchor write lands and is counted; R124: in HALTED it lands and is not; R123, R108: in RUN, word 63 completes
the write: the durable generation, the last-written copy and the live guard table are the write's, each covered bank is emptied and
gives its log words back, and a carried APPLY_GUARDS is DONE. Nothing waits here for a bank that becomes FREE. -/
def Obligations.AnchorWordLands : Prop :=
  ∀ (s : State) (a : Addr) (w : Word) (wr : AnchorWrite), memoryWf s.mem = true →
    s.port.inFlight = some ⟨.anchor, ⟨true, a, ⟨true, true⟩, w⟩⟩ → s.anchor.write = some wr →
    ∃ m, stored s.mem m a ⟨true, true⟩ w ∧
      (s.start.part = .run ∨ s.start.part = .formatting ∨ s.start.part = .recovery → wr.completed ≠ 63 →
        exec .anchorWordCompletion s =
          .next { s.portDone m with
            anchor := { s.anchor with write := some { wr with completed := wr.completed + 1 } } }) ∧
      (s.start.part = .halted → exec .anchorWordCompletion s = .next (s.portDone m)) ∧
      (s.start.part = .run → wr.completed = 63 → wr.carried ≠ some .format → s.txn.context ≠ .slotWait →
        (∀ h, s.host.slot = some h → h.awaits ≠ .holdCondition) →
        (wr.covers0 = true → s.bank0.state = .retiring) → (wr.covers1 = true → s.bank1.state = .retiring) →
        exec .anchorWordCompletion s =
          .next { s.portDone m with
            bank0 := if wr.covers0 then ⟨.free, none, [], none, none⟩ else s.bank0
            bank1 := if wr.covers1 then ⟨.free, none, [], none, none⟩ else s.bank1
            log := { s.log with used :=
              s.log.used - (if wr.covers0 then s.bank0.reserved else 0) - (if wr.covers1 then s.bank1.reserved else 0) }
            anchor := { s.anchor with generation := wr.generation, lastCopy := some wr.target, write := none }
            host := { s.host with guards := copyGuards wr.snapshot }
            mgmt := if wr.carried = some .applyGuards then
              { s.mgmt with status := { s.mgmt.status with status := .done, reason := none } } else s.mgmt })

/-- R133, R123, R108: word 63 of an anchor write in RUN, whether it frees both banks, one or none, lands, and gives the durable generation,
the last-written copy and the live guard table of the write, the log words of the freed banks, and a carried APPLY_GUARDS DONE. R23, R47,
R53, R77: a context in SLOT_WAIT then opens on the lower-numbered FREE bank, with the write held awaiting a bank as its entry 0; where no
bank is FREE it waits on, and so does that write; elsewhere the context stays. R71, R72, R78: a write held awaiting the hold condition is
then examined once: it claims memory where no committed bank holds its word, and waits on with its timer where one does; a write that
already awaits the port waits on. The order of these parts inside the event is the model's choice (log entry 18). -/
def Obligations.FreedBankServesWhatWaits : Prop :=
  ∀ (s : State) (a : Addr) (w : Word) (wr : AnchorWrite), memoryWf s.mem = true →
    s.port.inFlight = some ⟨.anchor, ⟨true, a, ⟨true, true⟩, w⟩⟩ → s.anchor.write = some wr →
    s.start.part = .run → wr.completed = 63 → wr.carried ≠ some .format →
    (wr.covers0 = true → s.bank0.state = .retiring) → (wr.covers1 = true → s.bank1.state = .retiring) →
    let k0 := if wr.covers0 then ⟨.free, none, [], none, none⟩ else s.bank0
    let k1 := if wr.covers1 then ⟨.free, none, [], none, none⟩ else s.bank1
    let lower : BankId := if k0.state = .free then .b0 else .b1
    let opens := s.txn.context = .slotWait ∧ (k0.state = .free ∨ k1.state = .free)
    let holder := fun (k : Bank) (a : Addr) => k.state.committed = true ∧ ∃ e ∈ k.entries, e.addr = a
    let kept := fun t : State => t.host.slot = s.host.slot ∧ t.host.holdTimer = s.host.holdTimer ∧ t.port.waiting = s.port.waiting
    ∃ m t, stored s.mem m a ⟨true, true⟩ w ∧ exec .anchorWordCompletion s = .next t ∧
      t = { s.portDone m with
        host := { s.host with guards := copyGuards wr.snapshot, slot := t.host.slot, holdTimer := t.host.holdTimer }
        txn := { s.txn with context := t.txn.context }
        bank0 := t.bank0
        bank1 := t.bank1
        log := { s.log with used :=
          s.log.used - (if wr.covers0 then s.bank0.reserved else 0) - (if wr.covers1 then s.bank1.reserved else 0) }
        anchor := { s.anchor with generation := wr.generation, lastCopy := some wr.target, write := none }
        port := { s.port with inFlight := none, waiting := t.port.waiting }
        mgmt := if wr.carried = some .applyGuards then
          { s.mgmt with status := { s.mgmt.status with status := .done, reason := none } } else s.mgmt } ∧
      (¬opens → t.txn = s.txn ∧ t.bank0 = k0 ∧ t.bank1 = k1) ∧
      (opens → t.txn = { s.txn with context := .opened lower } ∧
        (lower = .b0 → t.bank1 = k1) ∧ (lower = .b1 → t.bank0 = k0) ∧
        (∀ h, s.host.slot = some h → h.awaits = .bank →
          t.bank lower = ⟨.capture, none, [⟨h.addr, maskLanes h.lanes h.data, h.lanes, false⟩], none, none⟩ ∧
          t.host.slot = none ∧ t.host.holdTimer = { s.host.holdTimer with running := false } ∧ t.port.waiting = s.port.waiting) ∧
        ((∀ h, s.host.slot = some h → h.awaits ≠ .bank) → t.bank lower = ⟨.capture, none, [], none, none⟩)) ∧
      (s.host.slot = none → kept t) ∧
      (∀ h, s.host.slot = some h → h.awaits = .port ∨ (h.awaits = .bank ∧ ¬opens) → kept t) ∧
      (∀ h, s.host.slot = some h → h.awaits = .holdCondition →
        (¬(holder k0 h.addr ∨ holder k1 h.addr) →
          t.host.slot = some { h with awaits := .port } ∧ t.host.holdTimer = { s.host.holdTimer with running := false } ∧
          t.port.waiting = { s.port.waiting with host := some ⟨true, h.addr, h.lanes, h.data⟩ }) ∧
        (holder k0 h.addr ∨ holder k1 h.addr → kept t))

/-- R128: the completed clear write builds the new image and starts the FORMAT's first anchor write; R130: in HALTED the FORMAT goes
no further. R133, R123: word 63 of the first write lands and gives the durable generation, the last-written copy and the live guard
table of the write, and sets nothing else; the second write can then start. -/
def Obligations.FormatMakesTwoWrites : Prop :=
  ∀ (s : State) (region : LogRegion) (former : Option LogRegion),
    (∀ a w, memoryWf s.mem = true → s.port.inFlight = some ⟨.anchor, ⟨true, a, ⟨true, true⟩, w⟩⟩ → s.anchor.write = none →
      s.anchor.format = some ⟨region, former, .clearing⟩ →
      ∃ m, stored s.mem m a ⟨true, true⟩ w ∧
        (s.start.part = .formatting →
          let image : AnchorImage := {
            logBase := region.base
            logSize := region.size
            tail := 0
            tailSeq := if former = none ∨ s.txn.nextSeq = 0 then 1 else s.txn.nextSeq
            guards := if former = none then Vector.replicate 8 ⟨1, 0, .plain, .drop⟩ else s.host.guards }
          exec .formatClearCompletion s =
            .next { s.portDone m with
              anchor := { s.anchor with image := image, format := some ⟨region, former, .firstWrite⟩ } }.startWrite) ∧
        (s.start.part = .halted → exec .formatClearCompletion s = .next (s.portDone m))) ∧
    (s.start.part = .formatting →
      (∀ a w wr, memoryWf s.mem = true → s.anchor.format = some ⟨region, former, .firstWrite⟩ →
        s.port.inFlight = some ⟨.anchor, ⟨true, a, ⟨true, true⟩, w⟩⟩ →
        s.anchor.write = some wr → wr.completed = 63 → wr.carried = some .format → wr.covers0 = false → wr.covers1 = false →
        (∀ h, s.host.slot = some h → h.awaits ≠ .holdCondition) →
        ∃ m, stored s.mem m a ⟨true, true⟩ w ∧
          exec .anchorWordCompletion s = .next { s.portDone m with
            host := { s.host with guards := copyGuards wr.snapshot }
            anchor := { s.anchor with
              generation := wr.generation, lastCopy := some wr.target, write := none
              format := some ⟨region, former, .secondDue⟩ } }) ∧
      (s.anchor.format = some ⟨region, former, .secondDue⟩ → s.anchor.write = none →
        exec .formatSecondWriteStart s =
          .next { s with anchor := { s.anchor with format := some ⟨region, former, .secondWrite⟩ } }.startWrite))

/-- R129, R133, R123: word 63 of a FORMAT's second write lands and completes it: the head and used words are 0, the next sequence number is
the image's tail sequence, the command is DONE, the part is RUN, and the durable generation, the last-written copy and the live guard table
are the write's; R23, R77: a context in SLOT_WAIT then opens on Bank 0, with a write held awaiting a bank as its entry 0. No write awaits
the hold condition in FORMATTING (R72). The order of these parts inside the event is the model's choice (log entry 18). -/
def Obligations.FormatCompletes : Prop :=
  ∀ (s : State) (a : Addr) (w : Word) (wr : AnchorWrite) (region : LogRegion) (former : Option LogRegion),
    memoryWf s.mem = true → s.start.part = .formatting → s.anchor.format = some ⟨region, former, .secondWrite⟩ →
    s.port.inFlight = some ⟨.anchor, ⟨true, a, ⟨true, true⟩, w⟩⟩ → s.anchor.write = some wr → wr.completed = 63 →
    wr.carried = some .format → wr.covers0 = false → wr.covers1 = false →
    (∀ h, s.host.slot = some h → h.awaits ≠ .holdCondition) → s.bank0.state = .free →
    ∃ m t, stored s.mem m a ⟨true, true⟩ w ∧ exec .anchorWordCompletion s = .next t ∧
      t = { s.portDone m with
        host := { s.host with guards := copyGuards wr.snapshot, slot := t.host.slot, holdTimer := t.host.holdTimer }
        txn := { s.txn with context := t.txn.context, nextSeq := s.anchor.image.tailSeq }
        bank0 := t.bank0
        log := { s.log with head := 0, used := 0 }
        anchor := { s.anchor with generation := wr.generation, lastCopy := some wr.target, write := none, format := none }
        start := { s.start with part := .run }
        mgmt := { s.mgmt with status := { s.mgmt.status with status := .done, reason := none } } } ∧
      (s.txn.context ≠ .slotWait → t.txn.context = s.txn.context ∧ t.bank0 = s.bank0) ∧
      (s.txn.context = .slotWait → t.txn.context = .opened .b0) ∧
      ((s.txn.context ≠ .slotWait ∨ ∀ h, s.host.slot = some h → h.awaits ≠ .bank) →
        t.host.slot = s.host.slot ∧ t.host.holdTimer = s.host.holdTimer) ∧
      (s.txn.context = .slotWait →
        ((∀ h, s.host.slot = some h → h.awaits ≠ .bank) → t.bank0 = ⟨.capture, none, [], none, none⟩) ∧
        (∀ h, s.host.slot = some h → h.awaits = .bank →
          t.bank0 = ⟨.capture, none, [⟨h.addr, maskLanes h.lanes h.data, h.lanes, false⟩], none, none⟩ ∧ t.host.slot = none ∧
          t.host.holdTimer = { s.host.holdTimer with running := false }))

/-! ## Resets, halts and levels -/

/-- R145 with R4, R19, R20, R35, R37, R63, R96, R100, R111, R118, R119, R134, R141, R156, R167, R168, R172, R175, R178 and R179: what
each of the four resets leaves, block by block; R161: no transfer goes on; R140 and R141 for the attached memory; R144: RST# low after
RESET_PIN, which holds off the start-up work, PFW# high after POWER_RESUME, and every other level as it was or as POWER_ON gives it. R140
says that a halt lets the access in flight complete, and R141 that a reset finds it ended: that a write still in flight in HALTED is whole
after RESET_PIN and POWER_RESUME, and torn by POWER_ON alone, is the model's reading (log entry 9, DEDUCED). The model's
choices: the host's lines stay as the host drives them (log entry 27), the commands waiting behind the reset wait on (log entry 28), and
the values of the fields of its own (log entry 26). -/
def Obligations.EveryResetSetsEveryBlock : Prop :=
  ∀ (s : State) (c : Instr) (cause : ResetCause) (straps : Straps), memoryWf s.mem = true →
    s.resetGiven c cause straps →
    let resets := if cause = .powerOn then 0 else min 255 (s.start.report.resets + 1)
    let noGuard : GuardTable := Vector.replicate 8 ⟨1, 0, .plain, .drop⟩
    ∃ t, exec c s = .next t ∧ s.memoryAfter cause t.mem ∧
      t.host = ⟨none, none, ⟨0, false⟩, none, noGuard, false, none⟩ ∧
      t.txn = ⟨.idle, ⟨0, 0, false⟩, 0, 1, ⟨.none, none, none, none, none⟩, false⟩ ∧
      t.bank0 = ⟨.free, none, [], none, none⟩ ∧ t.bank1 = ⟨.free, none, [], none, none⟩ ∧
      t.log = ⟨none, 0, 0, 0xFFFF⟩ ∧ t.apply = ⟨none, none⟩ ∧
      t.anchor = ⟨⟨0, 0, 0, 1, noGuard⟩, 0, none, none, false, false, none⟩ ∧
      t.port = ⟨none, ⟨none, none, none, none, none⟩, 0, false, 0, straps.msz⟩ ∧
      t.start = ⟨.startup, ⟨cause, resets, none, 0, 0, false, 0, 1⟩, ⟨0, 1, 0, 0xFFFF⟩, .anchors [], ⟨0, 0⟩, true⟩ ∧
      t.mgmt.adr = straps.adr ∧ t.mgmt.pointer = 0 ∧ t.mgmt.editSel = 0 ∧ t.mgmt.liveSel = 0 ∧ t.mgmt.bankSel = .b0 ∧
      t.mgmt.entrySel = 0 ∧ t.mgmt.config = ⟨0, 0, 8, 0xF⟩ ∧ t.mgmt.edit = noGuard ∧ t.mgmt.command = ⟨0, 0, 0, none⟩ ∧
      t.mgmt.status = ⟨.idle, 0, none⟩ ∧ t.mgmt.transfer = none ∧
      (cause = .powerOn → t.mgmt.queue = [] ∧ t.mgmt.dropped = 0 ∧ t.mgmt.counters = ⟨0, 0, 0⟩) ∧
      (cause ≠ .powerOn →
        t.mgmt.queue = s.mgmt.queue ∧ t.mgmt.dropped = s.mgmt.dropped ∧ t.mgmt.counters = s.mgmt.counters) ∧
      t.pins.straps = straps ∧ t.pins.host = s.pins.host ∧ t.pending = s.pending ∧
      (∀ p, c = .powerOn p → t.pins.txnHigh = p.txnHigh ∧ t.pins.rstHigh = p.rstHigh ∧ t.pins.pfwHigh = p.pfwHigh) ∧
      (cause ≠ .powerOn → t.pins.txnHigh = s.pins.txnHigh ∧
        t.pins.rstHigh = (if cause = .resetPin then false else s.pins.rstHigh) ∧
        t.pins.pfwHigh = (if cause = .powerResume then true else s.pins.pfwHigh)) ∧
      t.hrstLow = true ∧ t.hwaitLow = true ∧ t.slotHigh = false ∧ t.tbsyHigh = false ∧ t.terrHigh = false

/-- R157, R140, R146: a fall of PFW# in RECOVERY, UNFORMATTED, RUN or FORMATTING sets the halt flag, freezes the timebase and moves the part
to HALTED; in STARTUP it is no event. R97, R110, R120, R130, R135, R157: in HALTED no engine claims, takes, chooses or starts anything, and
a start-up access that was in flight ends at the memory port alone. That the commands of such events change nothing, but for the level of
PFW#, is the model's choice (log entry 1). -/
def Obligations.PfwFallHalts : Prop :=
  ∀ (s : State),
    (s.start.part = .recovery ∨ s.controllerWorks →
      let t := { s with
        pins := { s.pins with pfwHigh := false }
        port := { s.port with halt := true }
        start := { s.start with part := .halted } }
      exec .pfwFall s = .next t ∧ (∀ n, t.advance n = t) ∧ exec .grant t = .next t) ∧
    (s.start.part = .startup ∨ s.start.part = .halted →
      exec .pfwFall s = .next { s with pins := { s.pins with pfwHigh := false } }) ∧
    (s.start.part = .halted →
      (∀ who, exec (.memoryClaim who) s = .next s) ∧ exec .logWriterTake s = .next s ∧ exec .applyTake s = .next s ∧
      exec .applyChoice s = .next s ∧ exec .pendingWriteStart s = .next s ∧ exec .formatSecondWriteStart s = .next s ∧
      (∀ a l d, s.port.inFlight = some ⟨.startup, ⟨false, a, l, d⟩⟩ →
        (∀ words, s.start.phase = .anchors words → exec .anchorReadCompletion s = .next (s.portDone s.mem)) ∧
        (∀ word count head, s.start.phase = .scan word count head → exec .scanReadCompletion s = .next (s.portDone s.mem)) ∧
        (∀ count entry record, s.start.phase = .replay count entry record → record.length < 3 →
          exec .replayReadCompletion s = .next (s.portDone s.mem))) ∧
      (∀ a l d count entry record, memoryWf s.mem = true → s.port.inFlight = some ⟨.startup, ⟨true, a, l, d⟩⟩ →
        s.start.phase = .replay count entry record → record.length = 3 →
        ∃ m, stored s.mem m a l d ∧ exec .replayWriteCompletion s = .next (s.portDone m)))

/-- R21, R41, R42: in STARTUP, RECOVERY and HALTED the edges of TXN and ABT are no events; R144: a rise of PFW# outside HALTED is none;
R147: a rise of RST# lets the anchor reads begin. In each only the level of the line changes: that the command of an edge that is no event
changes that much is the model's choice (log entry 1). -/
def Obligations.EdgesThatOnlyChangeALevel : Prop :=
  ∀ (s : State) (straps : Straps),
    (¬s.controllerWorks →
      exec .txnRise s = .next { s with pins := { s.pins with txnHigh := true } } ∧
      exec .release s = .next { s with pins := { s.pins with txnHigh := false } } ∧
      exec .abtRise s = .next s) ∧
    (s.start.part ≠ .halted → exec (.powerResume straps) s = .next { s with pins := { s.pins with pfwHigh := true } }) ∧
    exec .rstRise s = .next { s with pins := { s.pins with rstHigh := true } }

/-! ## Start-up and recovery -/

/-- R147: an anchor word is read; R148: the reads having ended with PFW# low, the part is HALTED with nothing loaded; R149: with PFW#
high and no valid copy, both copies are reported and the part enters UNFORMATTED. -/
def Obligations.AnchorReadsEndWithoutACopy : Prop :=
  ∀ (s : State) (a : Addr) (l : Lanes) (d : Word) (words : List Word),
    s.port.inFlight = some ⟨.startup, ⟨false, a, l, d⟩⟩ → s.start.phase = .anchors words → s.start.part = .startup →
    let all := words ++ [joinBytes (readByte s.mem (2 * a.toNat + 1)) (readByte s.mem (2 * a.toNat))]
    let t := s.portDone s.mem
    (all.length ≠ 128 → exec .anchorReadCompletion s = .next { t with start := { s.start with phase := .anchors all } }) ∧
    (all.length = 128 → s.pins.pfwHigh = false →
      exec .anchorReadCompletion s =
        .next { t with start := { s.start with phase := .done, part := .halted }, port := { t.port with halt := true } }) ∧
    (∀ ra rb, all.length = 128 → s.pins.pfwHigh = true → copyFailure s.memSize (all.take 64) = some ra →
      copyFailure s.memSize (all.drop 64) = some rb →
      let record := fun (r : Reason) (word : Addr) =>
        (⟨.anchorCopyInvalid, some r, some word, none, none, s.start.clock.millis⟩ : FaultRecord)
      let report := { s.start.report with
        copyUsed := none, copiesInvalid := 2, replayed := 0, partialImage := false, head := 0, nextSeq := 1 }
      ∃ u, exec .anchorReadCompletion s = .next u ∧
        { t with
          mgmt := (s.mgmt.offer (record ra 0)).offer (record rb 64)
          start := { s.start with report := report } }.startupEnds .unformatted u)

/-- R148, R116, R117: the reads having ended with PFW# high and a valid copy, the newest is loaded, the one that fails reported, and
the part is in RECOVERY with the scan at the copy's tail; R150: a scan that expects sequence 0 stops at once. -/
def Obligations.AnchorReadsEndWithACopy : Prop :=
  ∀ (s : State) (a : Addr) (l : Lanes) (d : Word) (words : List Word) (c : Copy),
    s.port.inFlight = some ⟨.startup, ⟨false, a, l, d⟩⟩ → s.start.phase = .anchors words → s.start.part = .startup →
    words.length = 127 → s.pins.pfwHigh = true →
    let all := words ++ [joinBytes (readByte s.mem (2 * a.toNat + 1)) (readByte s.mem (2 * a.toNat))]
    let failA := copyFailure s.memSize (all.take 64)
    let failB := copyFailure s.memSize (all.drop 64)
    let generation := fun copy : List Word => (copy.getD 2 0 ++ copy.getD 3 0 : DWord)
    copyTaken failA failB (generation (all.take 64)) (generation (all.drop 64)) c →
    let copy := match c with | .a => all.take 64 | .b => all.drop 64
    let image := copyImage copy
    let record := fun (r : Reason) (word : Addr) =>
      (⟨.anchorCopyInvalid, some r, some word, none, none, s.start.clock.millis⟩ : FaultRecord)
    let invalid := if failA = none ∧ failB = none then 0 else 1
    let t := { s.portDone s.mem with
      anchor := { s.anchor with image := image, generation := generation copy, lastCopy := some c }
      host := { s.host with guards := image.guards }
      mgmt := match failA, failB with
        | some r, _ => s.mgmt.offer (record r 0)
        | none, some r => s.mgmt.offer (record r 64)
        | none, none => s.mgmt
      start := { s.start with
        part := .recovery
        report := { s.start.report with copyUsed := some c, copiesInvalid := invalid }
        scan := ⟨image.tail, image.tailSeq, 0, 0xFFFF⟩
        phase := .scan 0 0 0 } }
    (image.tailSeq ≠ 0 → exec .anchorReadCompletion s = .next t) ∧
    (image.tailSeq = 0 → ∃ u, exec .anchorReadCompletion s = .next u ∧ t.scanEnds u)

/-- R150: the scan claims the next word of the log and tests it; each BEGIN and ENTRY word joins the scan CRC as it is read; a word that
passes joins the image, and the last one completes it; R152, R153: a word that fails ends the scan, and after BEGIN words 0 to 2 a
partial image is reported. That the claim's lane set is BOTH is the model's reading (log entry 19). -/
def Obligations.ScanTestsEachWord : Prop :=
  ∀ (s : State) (word count : Nat) (head : Word), s.start.part = .recovery → s.start.phase = .scan word count head →
    (s.port.waiting.startup = none → s.port.inFlight = none →
      let place := s.anchor.image.logBase + (s.start.scan.position + word) % s.anchor.image.logSize
      exec (.memoryClaim .startup) s = .next { s with port := { s.port with waiting := { s.port.waiting with
        startup := some ⟨false, BitVec.ofNat 20 place, ⟨true, true⟩, 0⟩ } } }) ∧
    (∀ a l d, s.port.inFlight = some ⟨.startup, ⟨false, a, l, d⟩⟩ →
      let w := joinBytes (readByte s.mem (2 * a.toNat + 1)) (readByte s.mem (2 * a.toNat))
      let t := s.portDone s.mem
      let ends := 4 ≤ word ∧ word = 7 + 3 * count
      let crc := if word = 0 then crcWord 0xFFFF w
        else if word < 4 ∨ word < 4 + 3 * count then crcWord s.start.scan.crc w else s.start.scan.crc
      let first := 4 ≤ word ∧ word < 4 + 3 * count ∧ (word - 4) % 3 = 0
      (s.scanPasses word count head w →
        exec .scanReadCompletion s = .next { t with start := { s.start with
          scan := { s.start.scan with crc := crc }
          phase := if ends then .replay count 0 []
            else .scan (word + 1) (if word = 3 then w.toNat else count) (if first then w else head) } }) ∧
      (¬s.scanPasses word count head w →
        let record : FaultRecord := ⟨.partialImageDiscarded, none,
          some (BitVec.ofNat 20 (s.anchor.image.logBase + s.start.scan.position)), some s.start.scan.expected, none,
          s.start.clock.millis⟩
        let r := { t with start := { s.start with scan := { s.start.scan with crc := crc } } }
        let u := if 3 ≤ word then
          { r with
            mgmt := s.mgmt.offer record
            start := { r.start with report := { s.start.report with partialImage := true } } }
          else r
        ∃ v, exec .scanReadCompletion s = .next v ∧ u.scanEnds v))

/-- R151: a complete image is replayed entry by entry: the record's three words are read again, its word is written on its lanes, and
after the last the report, the words scanned, the position and the expected sequence move on and the scan goes on from there. That the
lane set of the re-read's claim is BOTH is the model's reading (log entry 19). -/
def Obligations.ReplayWritesEachEntry : Prop :=
  ∀ (s : State) (count entry : Nat) (record : List Word), memoryWf s.mem = true →
    s.start.part = .recovery →
    s.start.phase = .replay count entry record →
    let claimed := fun x : Access => { s with port := { s.port with waiting := { s.port.waiting with startup := some x } } }
    let place := s.anchor.image.logBase +
      (s.start.scan.position + 4 + 3 * entry + record.length) % s.anchor.image.logSize
    (s.port.waiting.startup = none → s.port.inFlight = none →
      (record.length < 3 →
        exec (.memoryClaim .startup) s = .next (claimed ⟨false, BitVec.ofNat 20 place, ⟨true, true⟩, 0⟩)) ∧
      (∀ h a d, record = [h, a, d] →
        exec (.memoryClaim .startup) s =
          .next (claimed ⟨true, h.extractLsb' 0 4 ++ a, ⟨h.getLsbD 11, h.getLsbD 10⟩, d⟩))) ∧
    (∀ a l d, s.port.inFlight = some ⟨.startup, ⟨false, a, l, d⟩⟩ → record.length < 3 →
      exec .replayReadCompletion s = .next { s.portDone s.mem with start := { s.start with
        phase := .replay count entry
          (record ++ [joinBytes (readByte s.mem (2 * a.toNat + 1)) (readByte s.mem (2 * a.toNat))]) } }) ∧
    (∀ a l d, s.port.inFlight = some ⟨.startup, ⟨true, a, l, d⟩⟩ → record.length = 3 →
      ∃ m, stored s.mem m a l d ∧
        (entry + 1 < count →
          exec .replayWriteCompletion s =
            .next { s.portDone m with start := { s.start with phase := .replay count (entry + 1) [] } }) ∧
        (count ≤ entry + 1 →
          let z := 3 * count + 8
          let t := { s.portDone m with start := { s.start with
            report := { s.start.report with replayed := min 65535 (s.start.report.replayed + 1) }
            scan := { s.start.scan with
              position := (s.start.scan.position + z) % s.anchor.image.logSize
              expected := s.start.scan.expected + 1
              scanned := s.start.scan.scanned + z }
            phase := .scan 0 0 0 } }
          (s.start.scan.expected + 1 ≠ 0 → exec .replayWriteCompletion s = .next t) ∧
          (s.start.scan.expected + 1 = 0 → ∃ u, exec .replayWriteCompletion s = .next u ∧ t.scanEnds u)))

/-- R154, R159, R123: word 63 of the closing write completes it, and the part enters RUN, after the rest of the event (log entry 18). -/
def Obligations.ClosingWriteEntersRun : Prop :=
  ∀ (s : State) (a : Addr) (w : Word) (wr : AnchorWrite), memoryWf s.mem = true → s.start.part = .recovery →
    s.port.inFlight = some ⟨.anchor, ⟨true, a, ⟨true, true⟩, w⟩⟩ → s.anchor.write = some wr → wr.completed = 63 →
    wr.carried = none → wr.covers0 = false → wr.covers1 = false → s.host.slot = none →
    ∃ m t, stored s.mem m a ⟨true, true⟩ w ∧ exec .anchorWordCompletion s = .next t ∧
      { s.portDone m with
        anchor := { s.anchor with generation := wr.generation, lastCopy := some wr.target, write := none }
        host := { s.host with guards := copyGuards wr.snapshot } }.startupEnds .run t

/-! ## Management port -/

/-- R161: a transfer to another address is none of the port's, and bytes after a reset has abandoned their transfer are answered NACK, and
no data driven, until the next START; R162, R164: an item number above 0Dh is refused and the pointer kept, the item number alone moves
the pointer, and each byte the table of R164 refuses (but those of CONFIG and COMMAND, whose statements say it) is answered NACK with
every byte after it, the bytes before it standing. That all this holds while RST# is low too, and that in HALTED too the item pointer,
the fields of GUARD_EDIT and the selects are stored, is the model's reading (log entries 33 and 34, DEDUCED). That acks and readData
record what the port put on SDA is the model's choice (log entry 14). -/
def Obligations.TransferIsAddressedAndChecked : Prop :=
  ∀ (s : State) (target : BitVec 7), s.mgmt.transfer = none →
    let written := fun (bytes : List Byte) => exec (.registerWrite ⟨some target, true⟩ bytes) s
    let acked := fun (yes no : Nat) => List.replicate yes true ++ List.replicate no false
    (∀ stop bytes count, ¬s.addressed target →
      exec (.registerWrite ⟨some target, stop⟩ bytes) s = .next s ∧ exec (.configWrite ⟨some target, stop⟩ bytes) s = .next s ∧
      exec (.faultRead ⟨some target, stop⟩ count) s = .next s) ∧
    (∀ stop bytes count,
      let t := { s with mgmt := { s.mgmt with acks := acked 0 bytes.length } }
      exec (.registerWrite ⟨none, stop⟩ bytes) s = .next t ∧ exec (.configWrite ⟨none, stop⟩ bytes) s = .next t ∧
      exec (.faultRead ⟨none, stop⟩ count) s = .next { s with mgmt := { s.mgmt with readData := [] } }) ∧
    (∀ (item : Byte) rest, s.addressed target →
      (13 < item.toNat →
        written (item :: rest) = .next { s with mgmt := { s.mgmt with acks := acked 1 (rest.length + 1) } }) ∧
      (item.toNat ≤ 13 → written [item] = .next { s with mgmt := { s.mgmt with pointer := item, acks := acked 2 0 } }) ∧
      (∀ b, firstByteRefused item b →
        written (item :: b :: rest) =
          .next { s with mgmt := { s.mgmt with pointer := item, acks := acked 2 (rest.length + 1) } })) ∧
    (∀ (sel b : Byte) rest, s.addressed target → sel.toNat < 8 →
      written (0x07 :: sel :: b :: rest) =
        .next { s with mgmt := { s.mgmt with
          pointer := 0x07, liveSel := Fin.ofNat 8 sel.toNat, acks := acked 3 (rest.length + 1) } }) ∧
    (∀ (sel index b : Byte) rest, s.addressed target → sel.toNat < 2 →
      written (0x0A :: sel :: index :: b :: rest) =
        .next { s with mgmt := { s.mgmt with
          pointer := 0x0A, bankSel := if sel = 0 then .b0 else .b1, entrySel := index, acks := acked 4 (rest.length + 1) } }) ∧
    (∀ (sel a2 a1 a0 b2 b1 b0 p r : Byte) rest, s.addressed target → sel.toNat < 8 →
      let i := Fin.ofNat 8 sel.toNat
      let ranged : GuardEntry :=
        { s.mgmt.edit[i] with first := (a2 ++ a1 ++ a0).setWidth 20, last := (b2 ++ b1 ++ b0).setWidth 20 }
      let policed := { ranged with policy := if p = 0 then .plain else if p = 1 then .journaled else .locked }
      let stored := fun (g : GuardEntry) (yes no : Nat) =>
        { s with mgmt := { s.mgmt with pointer := 0x06, editSel := i, edit := s.mgmt.edit.set i g, acks := acked yes no } }
      (2 < p.toNat →
        written (0x06 :: sel :: a2 :: a1 :: a0 :: b2 :: b1 :: b0 :: p :: rest) = .next (stored ranged 9 (rest.length + 1))) ∧
      (p.toNat ≤ 2 → 1 < r.toNat →
        written (0x06 :: sel :: a2 :: a1 :: a0 :: b2 :: b1 :: b0 :: p :: r :: rest) = .next (stored policed 10 (rest.length + 1))))

/-- R162, R165, R168 to R171: transfers to GUARD_EDIT, to the selects of GUARD_LIVE and BANK_VIEW, and to COMMAND, of any number of bytes:
each field takes effect with its last byte, a field left unfinished keeps its former value, and a byte past the item's end is acknowledged
and discarded. The command byte sets both parameters to 0, and its command is due to be taken once the transfer ends; a command byte that
R164 refuses stores nothing. That all this holds while RST# is low too, and that in HALTED too the item pointer, the fields of GUARD_EDIT
and the selects are stored, is the model's reading (log entries 33 and 34, DEDUCED), and so is that the command waits in the field `due` for
the row that takes it (log entry 15, DEDUCED). That acks records what the port put on SDA is the model's choice (log entry 14). -/
def Obligations.RegistersAreWritten : Prop :=
  ∀ (s : State) (target : BitVec 7), s.addressed target → s.mgmt.transfer = none →
    let written := fun (bytes : List Byte) => exec (.registerWrite ⟨some target, true⟩ bytes) s
    (∀ (sel a2 a1 a0 b2 b1 b0 p r : Byte) (tail rest : List Byte),
      sel.toNat < 8 → p.toNat ≤ 2 → r.toNat ≤ 1 → tail.length < 3 →
      let i := Fin.ofNat 8 sel.toNat
      let g0 : GuardEntry := s.mgmt.edit[i]
      let g1 := { g0 with first := (a2 ++ a1 ++ a0).setWidth 20 }
      let g2 := { g1 with last := (b2 ++ b1 ++ b0).setWidth 20 }
      let g3 := { g2 with policy := if p = 0 then .plain else if p = 1 then .journaled else .locked }
      let g4 := { g3 with action := if r = 0 then .drop else .dropAndReset }
      let stored := fun (g : GuardEntry) (bytes : List Byte) =>
        { s with mgmt := { s.mgmt with
          pointer := 0x06, editSel := i, edit := s.mgmt.edit.set i g, acks := List.replicate (bytes.length + 1) true } }
      let gives := fun (g : GuardEntry) (bytes : List Byte) => written bytes = .next (stored g bytes)
      gives g0 ([0x06, sel] ++ tail) ∧ gives g1 ([0x06, sel, a2, a1, a0] ++ tail) ∧
      gives g2 [0x06, sel, a2, a1, a0, b2, b1, b0] ∧ gives g3 [0x06, sel, a2, a1, a0, b2, b1, b0, p] ∧
      gives g4 ([0x06, sel, a2, a1, a0, b2, b1, b0, p, r] ++ rest)) ∧
    (∀ sel : Byte, sel.toNat < 8 →
      written [0x07, sel] =
        .next { s with mgmt := { s.mgmt with pointer := 0x07, liveSel := Fin.ofNat 8 sel.toNat, acks := [true, true, true] } }) ∧
    (∀ sel index : Byte, sel.toNat < 2 →
      let selected := if sel = 0 then BankId.b0 else .b1
      written [0x0A, sel] =
        .next { s with mgmt := { s.mgmt with pointer := 0x0A, bankSel := selected, acks := [true, true, true] } } ∧
      written [0x0A, sel, index] =
        .next { s with mgmt := { s.mgmt with
          pointer := 0x0A, bankSel := selected, entrySel := index, acks := [true, true, true, true] } }) ∧
    (∀ (code a3 a2 a1 a0 b3 b2 b1 b0 : Byte) (tail rest : List Byte), tail.length < 4 →
      let gives := fun (a b : DWord) (bytes : List Byte) =>
        written bytes = .next { s with mgmt := { s.mgmt with
          pointer := 0x0C, command := ⟨code, a, b, some code⟩, acks := List.replicate (bytes.length + 1) true } }
      (s.controllerWorks ∧ (s.mgmt.status.status ≠ .busy ∨ code = 0x07) →
        gives 0 0 ([0x0C, code] ++ tail) ∧ gives (a3 ++ a2 ++ a1 ++ a0) 0 ([0x0C, code, a3, a2, a1, a0] ++ tail) ∧
        gives (a3 ++ a2 ++ a1 ++ a0) (b3 ++ b2 ++ b1 ++ b0) ([0x0C, code, a3, a2, a1, a0, b3, b2, b1, b0] ++ rest)) ∧
      (¬s.controllerWorks ∨ (s.mgmt.status.status = .busy ∧ code ≠ 0x07) →
        written ([0x0C, code] ++ rest) = .next { s with mgmt := { s.mgmt with
          pointer := 0x0C, acks := true :: true :: List.replicate (rest.length + 1) false } }))

/-- R167, R164, R165: a write of CONFIG outside HALTED stores each field with its last byte, where the new limits leave no running timer at
or past them; an unfinished limit keeps its former value, and a byte past the end is acknowledged and discarded; a burst-limit byte outside
1 to 64 is refused with every byte after it; in HALTED every byte is refused. R29, R75: an open limit or a hold limit at or below the time
elapsed expires its timer at once, with the effects of R30, R24, R76 and R28. That 'at once' is in the event of the write is the model's
reading (log entry 6), and so is that all this holds while RST# is low too (log entry 33) and that the item pointer moves in HALTED too (log
entry 34), and that HALTED refuses the bytes past the item's end as well (log entry 31; all four DEDUCED). That acks records what the port
put on SDA is the model's choice (log entry 14). A REGISTER_WRITE of item 04h and the same bytes is the same command. -/
def Obligations.ConfigurationIsWritten : Prop :=
  ∀ (s : State) (target : BitVec 7) (o1 o0 h1 h0 burst mask : Byte) (rest : List Byte), s.addressed target → s.mgmt.transfer = none →
    let written := fun (bytes : List Byte) => exec (.configWrite ⟨some target, true⟩ bytes) s
    let ends := fun (c : Configuration) (yes no : Nat) (t : State) =>
      Host.Outcome.next { t with mgmt := { t.mgmt with
        pointer := 0x04, config := c, acks := List.replicate yes true ++ List.replicate no false } }
    let setOpen := { s.mgmt.config with openLimit := o1 ++ o0 }
    let setHold := { setOpen with holdLimit := h1 ++ h0 }
    let openDue := s.controllerWorks ∧ s.txn.openTimer.running = true ∧
      o1 ++ o0 ≠ 0#16 ∧ (o1 ++ o0).toNat ≤ s.txn.openTimer.millis ∧
      (s.txn.context = .slotWait ∨ ∃ b, s.txn.context = .opened b)
    let holdDue := s.controllerWorks ∧ s.host.holdTimer.running = true ∧
      h1 ++ h0 ≠ 0#16 ∧ (h1 ++ h0).toNat ≤ s.host.holdTimer.micros
    (∀ stop, exec (.registerWrite ⟨some target, stop⟩ (0x04 :: rest)) s = exec (.configWrite ⟨some target, stop⟩ rest) s) ∧
    (s.start.part ≠ .halted → written [o1] = ends s.mgmt.config 3 0 s) ∧
    (s.start.part ≠ .halted → ¬openDue →
      written [o1, o0] = ends setOpen 4 0 s ∧ written [o1, o0, h1] = ends setOpen 5 0 s) ∧
    (s.start.part ≠ .halted → ¬openDue → ¬holdDue →
      written [o1, o0, h1, h0] = ends setHold 6 0 s ∧
      (1 ≤ burst.toNat → burst.toNat ≤ 64 →
        written [o1, o0, h1, h0, burst] = ends ⟨o1 ++ o0, h1 ++ h0, burst.toNat, s.mgmt.config.alertMask⟩ 7 0 s ∧
        written ([o1, o0, h1, h0, burst, mask] ++ rest) =
          ends ⟨o1 ++ o0, h1 ++ h0, burst.toNat, mask.setWidth 4⟩ (8 + rest.length) 0 s) ∧
      (burst = 0 ∨ 64 < burst.toNat → written ([o1, o0, h1, h0, burst] ++ rest) = ends setHold 6 (1 + rest.length) s)) ∧
    (s.start.part = .halted → written rest = ends s.mgmt.config 2 rest.length s) ∧
    (openDue →
      (∀ b, s.txn.context = .opened b → written [o1, o0] = ends setOpen 4 0 (s.voidedOpen b .expired)) ∧
      (s.txn.context = .slotWait →
        ((∀ h, s.host.slot = some h → h.awaits ≠ .bank) → written [o1, o0] = ends setOpen 4 0 (s.voidedWaiting .expired)) ∧
        (∀ h, s.host.slot = some h → h.awaits = .bank → written [o1, o0] = ends setOpen 4 0 (s.voidedHolding .expired)))) ∧
    (¬openDue → holdDue → ∀ h, s.host.slot = some h →
      (h.awaits = .holdCondition →
        written [o1, o0, h1, h0] = ends setHold 6 0 (s.slotEmptied.withRefused .holdExpired h.addr h.entry)) ∧
      (h.awaits = .bank → s.txn.context = .slotWait →
        written [o1, o0, h1, h0] =
          ends setHold 6 0 ((s.slotEmptied.withRefused .holdExpired h.addr h.entry).voidedWaiting .noSlot)))

/-- R163: a read transfer returns the bytes of the item that the item pointer selects, FFh past their end, and changes nothing, except a
read of FAULT: R176: it returns the oldest record with the records then held, and removes it, in HALTED without removing it; an empty
queue reads 00h throughout. R162: a write of the item number alone, followed by a repeated START and a read, reads the item just selected.
That FAULT_READ stands for the read of every item is the model's reading of the table (log entry 16), and so are what a pointer above 0Dh
selects (log entry 25), that all this holds while RST# is low too (log entry 33) and that the item pointer is written in HALTED too (log
entry 34; all DEDUCED). That acks and readData record what the port put on SDA is the model's choice (log entry 14). -/
def Obligations.ReadReturnsTheSelectedItem : Prop :=
  ∀ (s : State) (target : BitVec 7) (count : Nat), s.addressed target → s.mgmt.transfer = none →
    let read := fun t : State => exec (.faultRead ⟨some target, true⟩ count) t
    let gives := fun (bytes : List Byte) (queue : List FaultRecord) =>
      read s = .next { s with mgmt := { s.mgmt with
        queue := queue, readData := bytes.take count ++ List.replicate (count - bytes.length) 0xFF } }
    (s.mgmt.pointer ≠ 0x08 → gives (s.itemBytes s.mgmt.pointer.toNat) s.mgmt.queue) ∧
    (s.mgmt.pointer = 0x08 →
      (∀ r rest, s.mgmt.queue = r :: rest → s.start.part ≠ .halted → gives (r.bytes ++ [BitVec.ofNat 8 rest.length]) rest) ∧
      (∀ r rest, s.mgmt.queue = r :: rest → s.start.part = .halted →
        gives (r.bytes ++ [BitVec.ofNat 8 (rest.length + 1)]) (r :: rest)) ∧
      (s.mgmt.queue = [] → gives (List.replicate 16 0) [])) ∧
    (∀ item : Byte, item.toNat ≤ 13 →
      ∃ t, exec (.registerWrite ⟨some target, false⟩ [item]) s = .next t ∧
        read t = read { s with mgmt := { s.mgmt with pointer := item, acks := [true, true] } })

/-- That the bytes of one transfer may come in several commands, an event between two of them, and that the fields acks and readData record
what the port put on SDA, is the model's choice (log entry 14); what the bytes do and how they are answered (R161 to R163, R165) is then
what they do in one command. R161: a START, to whatever address, ends the transfer in progress, and so does a STOP; R171: a command whose
byte was acknowledged in it is due from then on, unless the part is HALTED by then: that it waits in the field `due` for the row that takes
it is the model's reading (log entry 15), and so is that all this holds while RST# is low too (log entry 33; both DEDUCED). -/
def Obligations.TransferGoesOnAndEnds : Prop :=
  (∀ (s : State) (start : Option (BitVec 7)) (stop : Bool), (∀ target, start = some target → s.addressed target) →
    (∀ (write : Framing → List Byte → Instr) (first later : List Byte), write = .registerWrite ∨ write = .configWrite →
      ∃ t u, exec (write ⟨start, false⟩ first) s = .next t ∧ exec (write ⟨none, stop⟩ later) t = .next u ∧
        exec (write ⟨start, stop⟩ (first ++ later)) s =
          .next { u with mgmt := { u.mgmt with acks := t.mgmt.acks ++ u.mgmt.acks } }) ∧
    (∀ first later : Nat,
      ∃ t u, exec (.faultRead ⟨start, false⟩ first) s = .next t ∧ exec (.faultRead ⟨none, stop⟩ later) t = .next u ∧
        exec (.faultRead ⟨start, stop⟩ (first + later)) s =
          .next { u with mgmt := { u.mgmt with readData := t.mgmt.readData ++ u.mgmt.readData } })) ∧
  (∀ (s : State) (target : BitVec 7) (stop : Bool) (bytes : List Byte) (count : Nat),
    let frame : Framing := ⟨some target, stop⟩
    ∀ c ∈ [Instr.registerWrite frame bytes, .configWrite frame bytes, .faultRead frame count],
      (∀ w, s.mgmt.transfer = some (.write w) → exec c s = exec c (s.transferEnded w.commanded)) ∧
      (∀ left, s.mgmt.transfer = some (.read left) → exec c s = exec c (s.transferEnded false))) ∧
  (∀ s : State,
    (∀ w, s.mgmt.transfer = some (.write w) →
      exec (.registerWrite ⟨none, true⟩ []) s = .next ({ s with mgmt := { s.mgmt with acks := [] } }.transferEnded w.commanded)) ∧
    (∀ left, s.mgmt.transfer = some (.read left) →
      exec (.faultRead ⟨none, true⟩ 0) s = .next ({ s with mgmt := { s.mgmt with readData := [] } }.transferEnded false)))

/-- R163, R165, R166, R170: the bytes of the fourteen items: each field at its offset, most significant byte first, in the codes of R166,
the absent ones as the layouts give (in an outcome of NONE absent numbers read 0: log entry 20). -/
def Obligations.ItemsReadAsLaidOut : Prop :=
  ∀ s : State,
    let field := fun item off width : Nat => fromBytes (((s.itemBytes item).drop off).take width)
    let bit := fun b : Bool => if b then 1 else 0
    let part := fun p : PartState => match p with
      | .startup => 0 | .recovery => 1 | .unformatted => 2 | .run => 3 | .formatting => 4 | .halted => 5
    let context := fun c : Context => match c with
      | .idle => 0 | .slotWait => 1 | .opened _ => 2 | .voided _ => 3
    let bankState := fun b : BankState => match b with
      | .free => 0 | .capture => 1 | .logWait => 2 | .logging => 3 | .applyWait => 4 | .applying => 5 | .retiring => 6
    let cause := fun c : ResetCause => match c with
      | .powerOn => 0 | .resetPin => 1 | .soft => 2 | .powerResume => 3
    let result := fun r : OutcomeResult => match r with
      | .none => 0 | .accepted => 1 | .empty => 2 | .failed => 3
    let status := fun c : CommandStatus => match c with
      | .idle => 0 | .busy => 1 | .done => 2 | .refused => 3
    let kind := fun k : FaultKind => match k with
      | .accessRefused => 1 | .transactionFailed => 2 | .anchorCopyInvalid => 3 | .partialImageDiscarded => 4
    let reason := fun r : Option Reason => match r with
      | none => 0 | some .range => 0x01 | some .rangeRead => 0x02 | some .anchor => 0x03 | some .log => 0x04
      | some .unjournaled => 0x05 | some .locked => 0x06 | some .holdExpired => 0x07 | some .noSlot => 0x08
      | some .unformatted => 0x09 | some .aborted => 0x0A | some .expired => 0x0B | some .overflow => 0x0C
      | some .refusedWrite => 0x0D | some .hostReset => 0x0E | some .reset => 0x0F | some .logTooSmall => 0x10
      | some .sequenceEnd => 0x11 | some .signature => 0x12 | some .crc => 0x13 | some .logFields => 0x14
      | some .noTransaction => 0x20 | some .busyState => 0x21 | some .badParameter => 0x22
    let reads := fun (item : Nat) (fields : List (Nat × Nat × Nat)) =>
      ∀ f ∈ fields, field item f.1 f.2.1 = f.2.2 % 256 ^ f.2.1
    let guard := fun (item : Nat) (sel : Fin 8) (g : GuardEntry) =>
      reads item [(0, 1, sel), (1, 3, g.first.toNat), (4, 3, g.last.toNat),
        (7, 1, match g.policy with | .plain => 0 | .journaled => 1 | .locked => 2),
        (8, 1, match g.action with | .drop => 0 | .dropAndReset => 1)]
    let report := s.start.report
    let outcome := s.txn.outcome
    let image := s.anchor.image
    let viewed := s.bank s.mgmt.bankSel
    (∀ i < 14, (s.itemBytes i).length = [3, 7, 15, 10, 6, 32, 9, 9, 16, 2, 27, 12, 9, 3].getD i 0) ∧
    reads 0x00 [(0, 2, 0x4210), (2, 1, 0x01)] ∧
    reads 0x01 [(0, 1, part s.start.part), (1, 1, context s.txn.context), (2, 1, bankState s.bank0.state),
      (3, 1, bankState s.bank1.state), (4, 1, bit s.tbsyHigh), (5, 1, bit s.slotHigh), (6, 1, bit s.terrHigh)] ∧
    reads 0x02 [(0, 1, cause report.cause), (1, 1, report.resets),
      (2, 1, match report.copyUsed with | none => 0 | some .a => 1 | some .b => 2), (3, 1, report.copiesInvalid),
      (4, 2, report.replayed), (6, 1, bit report.partialImage), (7, 4, report.head), (11, 4, report.nextSeq.toNat)] ∧
    reads 0x03 [(0, 1, result outcome.result), (1, 1, reason outcome.reason), (2, 4, (outcome.sequence.getD 0).toNat),
      (6, 2, outcome.entries.getD 0), (8, 2, outcome.refused.getD 0)] ∧
    reads 0x04 [(0, 2, s.mgmt.config.openLimit.toNat), (2, 2, s.mgmt.config.holdLimit.toNat),
      (4, 1, s.mgmt.config.burstLimit), (5, 1, s.mgmt.config.alertMask.toNat)] ∧
    reads 0x05 [(0, 4, s.anchor.generation.toNat), (4, 4, image.logBase), (8, 4, image.logSize), (12, 4, image.tail),
      (16, 4, image.tailSeq.toNat), (20, 4, s.log.head), (24, 4, s.log.used), (28, 4, s.txn.nextSeq.toNat)] ∧
    guard 0x06 s.mgmt.editSel s.mgmt.edit[s.mgmt.editSel] ∧
    guard 0x07 s.mgmt.liveSel s.host.guards[s.mgmt.liveSel] ∧
    (∀ r rest, s.mgmt.queue = r :: rest →
      reads 0x08 [(0, 1, kind r.kind), (1, 1, reason r.cause),
        (2, 1, bit r.addr.isSome + 2 * bit r.sequence.isSome + 4 * bit r.entry.isSome), (3, 3, (r.addr.getD 0).toNat),
        (6, 4, (r.sequence.getD 0).toNat), (10, 1, r.entry.getD 0), (11, 4, r.stamp.toNat),
        (15, 1, if s.start.part = .halted then rest.length + 1 else rest.length)]) ∧
    (s.mgmt.queue = [] → s.itemBytes 0x08 = List.replicate 16 0) ∧
    reads 0x09 [(0, 1, s.mgmt.queue.length), (1, 1, s.mgmt.dropped)] ∧
    reads 0x0A [(0, 1, match s.mgmt.bankSel with | .b0 => 0 | .b1 => 1), (1, 1, s.mgmt.entrySel.toNat),
      (10, 1, bankState viewed.state), (11, 4, (viewed.seq.getD 0).toNat), (15, 2, viewed.entries.length),
      (17, 2, viewed.appliedCount), (19, 4, match viewed.image with | none => 0 | some i => i.start),
      (23, 2, match viewed.image with | none => 0 | some i => i.size), (25, 2, viewed.target.getD 0xFFFF)] ∧
    (∀ e, viewed.entries[s.mgmt.entrySel.toNat]? = some e →
      reads 0x0A [(2, 1, 1), (3, 3, e.addr.toNat), (6, 2, e.data.toNat), (8, 1, 2 * bit e.lanes.upper + bit e.lanes.lower),
        (9, 1, bit e.applied)]) ∧
    (viewed.entries[s.mgmt.entrySel.toNat]? = none → reads 0x0A [(2, 8, 0)]) ∧
    reads 0x0B [(0, 4, s.mgmt.counters.accepted.toNat), (4, 4, s.mgmt.counters.durable.toNat),
      (8, 4, s.mgmt.counters.failed.toNat)] ∧
    reads 0x0C [(0, 1, s.mgmt.command.code.toNat), (1, 4, s.mgmt.command.paramA.toNat), (5, 4, s.mgmt.command.paramB.toNat)] ∧
    reads 0x0D [(0, 1, status s.mgmt.status.status), (1, 1, s.mgmt.status.code.toNat), (2, 1, reason s.mgmt.status.reason)]

/-- R26: the take of ABORT. -/
def Obligations.AbortCommandVoidsTheTransaction : Prop :=
  ∀ (s : State), s.mgmt.command.due = some 0x01 → s.controllerWorks →
    (∀ b, s.txn.context = .opened b →
      exec .abort s = .next ((s.taken.voidedOpen b .aborted).withStatus .done 0x01 none)) ∧
    (s.txn.context = .slotWait →
      ((∀ h, s.host.slot = some h → h.awaits ≠ .bank) →
        exec .abort s = .next ((s.taken.voidedWaiting .aborted).withStatus .done 0x01 none)) ∧
      (∀ h, s.host.slot = some h → h.awaits = .bank →
        exec .abort s = .next ((s.taken.voidedHolding .aborted).withStatus .done 0x01 none))) ∧
    (s.txn.context = .idle ∨ (∃ r, s.txn.context = .voided r) →
      exec .abort s = .next (s.taken.withStatus .refused 0x01 (some .noTransaction)))

/-- R125, R120: the take of APPLY_GUARDS: refused outside RUN and where an enabled entry of the edit table reaches the memory size;
otherwise BUSY, with the edit table in the in-part image and an anchor write requested. -/
def Obligations.ApplyGuardsRequestsAnAnchorWrite : Prop :=
  ∀ (s : State), s.mgmt.command.due = some 0x02 →
    let reaches := ∃ i : Fin 8, (s.mgmt.edit[i]).first ≤ (s.mgmt.edit[i]).last ∧ s.memSize ≤ (s.mgmt.edit[i]).last.toNat
    let t := { s.taken.withStatus .busy 0x02 none with anchor := { s.anchor with
      image := { s.anchor.image with guards := s.mgmt.edit }, guardsDue := true } }
    (s.start.part = .unformatted ∨ s.start.part = .formatting →
      exec .applyGuards s = .next (s.taken.withStatus .refused 0x02 (some .busyState))) ∧
    (s.start.part = .run → reaches → exec .applyGuards s = .next (s.taken.withStatus .refused 0x02 (some .badParameter))) ∧
    (s.start.part = .run → ¬reaches →
      (s.anchor.write = none → exec .applyGuards s = .next t.startWrite) ∧
      (s.anchor.write ≠ none → exec .applyGuards s = .next { t with anchor := { t.anchor with pending := true } }))

/-- R126, R127: the take of FORMAT with the log base A and the log size B. -/
def Obligations.FormatIsCheckedAndAccepted : Prop :=
  ∀ (s : State), s.mgmt.command.due = some 0x04 → s.controllerWorks →
    let base := s.mgmt.command.paramA.toNat
    let size := s.mgmt.command.paramB.toNat
    let fits := 128 ≤ base ∧ 1024 ≤ size ∧ size ≤ 262144 ∧ base + size ≤ s.memSize
    let ready := s.start.part ≠ .formatting ∧ s.txn.context = .idle ∧ s.bank0.state = .free ∧ s.bank1.state = .free ∧
      s.anchor.write = none ∧ s.anchor.pending = false
    let former := if s.start.part = .run then some ⟨s.anchor.image.logBase, s.anchor.image.logSize⟩ else none
    let t := s.taken.withStatus .busy 0x04 none
    (¬ready → exec .format s = .next (s.taken.withStatus .refused 0x04 (some .busyState))) ∧
    (ready → ¬fits → exec .format s = .next (s.taken.withStatus .refused 0x04 (some .badParameter))) ∧
    (ready → fits →
      exec .format s = .next { t with
        anchor := { s.anchor with format := some ⟨⟨base, size⟩, former, .clearing⟩ }
        start := { s.start with part := .formatting }
        port := { s.port with waiting := { s.port.waiting with
          anchor := some ⟨true, BitVec.ofNat 20 base, ⟨true, true⟩, 0⟩ } } })

/-- R168, R172, R173, R175, R178: the takes of RELOAD_GUARD_EDIT, CLEAR_FAULTS, CLEAR_COUNTERS; R171: the take of an unknown code is a
refusal with BAD_PARAMETER. R171 says that no command is taken where the part is HALTED at the end of its transfer; that a command already
due when the part halts is dropped as its row comes, with no effect but that it is due no longer, is the model's reading, and so is the
field `due` (log entry 15, DEDUCED). -/
def Obligations.PortCommandsAreTaken : Prop :=
  ∀ (s : State) (code : Byte), s.mgmt.command.due = some code →
    (s.controllerWorks →
      (code = 0x03 → exec .reloadGuardEdit s =
        .next ({ s.taken with mgmt := { s.taken.mgmt with edit := s.host.guards } }.withStatus .done 0x03 none)) ∧
      (code = 0x05 → exec .clearFaults s =
        .next ({ s.taken with mgmt := { s.taken.mgmt with queue := [], dropped := 0 } }.withStatus .done 0x05 none)) ∧
      (code = 0x06 → exec .clearCounters s =
        .next ({ s.taken with mgmt := { s.taken.mgmt with counters := ⟨0, 0, 0⟩ } }.withStatus .done 0x06 none)) ∧
      (code = 0x00 ∨ 7 < code.toNat → exec .unknownCommand s =
        .next (s.taken.withStatus .refused code (some .badParameter)))) ∧
    (s.start.part = .halted →
      (code = 0x03 → exec .reloadGuardEdit s = .next s.taken) ∧ (code = 0x05 → exec .clearFaults s = .next s.taken) ∧
      (code = 0x06 → exec .clearCounters s = .next s.taken) ∧ (code = 0x01 → exec .abort s = .next s.taken) ∧
      (code = 0x02 → exec .applyGuards s = .next s.taken) ∧ (code = 0x04 → exec .format s = .next s.taken) ∧
      (∀ straps, code = 0x07 → exec (.softReset straps) s = .next s.taken) ∧
      (code = 0x00 ∨ 7 < code.toNat → exec .unknownCommand s = .next s.taken))

/-! ## Invariants of every step -/

/-- The memory keeps its canonical form (keys strictly rising, no byte 00h listed), so that equal memories stay equal data. The form is the
model's own, and no rule of the data sheet: log entries 3 and 10, DESIGN CHOICE. -/
def Obligations.StepKeepsTheMemoryCanonical : Prop :=
  ∀ (s t : State), memoryWf s.mem = true → step s = .next t → memoryWf t.mem = true

/-- R19, R44, R45, R51, R54, R88, R90, R100: the protocol among the banks, the context, the log writer and the apply engine. -/
def Obligations.StepKeepsTheProtocol : Prop :=
  ∀ (s t : State), s.protocol → step s = .next t → t.protocol

/-- R15, R19, R29, R75, R138, R145, R156, R167, R175: the numbers stay in their ranges; R140, R157: the halt flag is set exactly in
HALTED. -/
def Obligations.StepKeepsTheNumbersInRange : Prop :=
  ∀ (s t : State), s.bounded → s.haltSound → step s = .next t → t.bounded ∧ t.haltSound

/-- R135: each claimant keeps at most one claim, waiting or in flight; R2, R9, R71: the host port has one exactly while an access is in
progress or a held write waits for the port. The protocol rules out a FORMAT under way outside FORMATTING (R126). -/
def Obligations.StepKeepsOneClaimEach : Prop :=
  ∀ (s t : State), s.protocol → s.claimsSound → step s = .next t → t.claimsSound

/-- What every step keeps holds after a POWER_ON reset. The canonical form of the memory is the model's own (log entries 3 and 10). -/
def Obligations.ResetMeetsTheInvariants : Prop :=
  memoryWf State.reset.mem = true ∧ State.reset.protocol ∧ State.reset.bounded ∧ State.reset.haltSound ∧ State.reset.claimsSound

/-! ## Images and anchor copies -/

/-- R114 to R117: a copy is valid exactly when it passes the six tests, R147: of the tests it fails the first is noted; R115, R148: of
a copy loaded only the named bits are used, and policy code 11 is LOCKED; R114, R121: the words an anchor write lays out of an image,
bits 31:16 of a field first, and every bit not named 0; and the copy of an image whose log fields fit is valid and loads back as that
image with that generation. -/
def Obligations.AnchorCopyLoadsBack : Prop :=
  let field := fun (copy : List Word) (n : Nat) => (copy.getD n 0 ++ copy.getD (n + 1) 0 : DWord)
  (∀ (size : Nat) (copy : List Word),
    let signature := copy.getD 0 0 = 0x5356 ∧ copy.getD 1 0 = 0x4A42
    let crc := copy.getD 63 0 = crcWords (copy.take 63)
    let fields := 128 ≤ (field copy 4).toNat ∧ 1024 ≤ (field copy 6).toNat ∧ (field copy 6).toNat ≤ 262144 ∧
      (field copy 4).toNat + (field copy 6).toNat ≤ size ∧ (field copy 8).toNat < (field copy 6).toNat
    (signature → crc → fields → copyFailure size copy = none) ∧
    (¬signature → copyFailure size copy = some .signature) ∧
    (signature → ¬crc → copyFailure size copy = some .crc) ∧
    (signature → crc → ¬fields → copyFailure size copy = some .logFields)) ∧
  (∀ (copy : List Word) (e : Fin 8),
    let word := fun n : Nat => copy.getD (12 + 4 * e.val + n) 0
    let code := (word 2).extractLsb' 14 2
    (copyImage copy).logBase = (field copy 4).toNat ∧ (copyImage copy).logSize = (field copy 6).toNat ∧
    (copyImage copy).tail = (field copy 8).toNat ∧ (copyImage copy).tailSeq = field copy 10 ∧
    (copyImage copy).guards = copyGuards copy ∧
    (copyImage copy).guards[e] = ⟨(word 0).extractLsb' 0 4 ++ word 1, (word 2).extractLsb' 0 4 ++ word 3,
      if code = 0#2 then .plain else if code = 1#2 then .journaled else .locked,
      if (word 2).getLsbD 13 then .dropAndReset else .drop⟩) ∧
  (∀ (image : AnchorImage) (generation : DWord) (e : Fin 8),
    let copy := copySnapshot image generation
    let word := fun n : Nat => copy.getD n 0
    let halves := fun (n : Nat) (v : DWord) => word n = v.extractLsb' 16 16 ∧ word (n + 1) = v.extractLsb' 0 16
    let g : GuardEntry := image.guards[e]
    copy.length = 64 ∧ word 0 = 0x5356 ∧ word 1 = 0x4A42 ∧ halves 2 generation ∧ halves 4 (BitVec.ofNat 32 image.logBase) ∧
    halves 6 (BitVec.ofNat 32 image.logSize) ∧ halves 8 (BitVec.ofNat 32 image.tail) ∧ halves 10 image.tailSeq ∧
    word (12 + 4 * e.val) = 0#12 ++ g.first.extractLsb' 16 4 ∧ word (13 + 4 * e.val) = g.first.extractLsb' 0 16 ∧
    word (14 + 4 * e.val) =
      (match g.policy with | .plain => 0#2 | .journaled => 1#2 | .locked => 2#2) ++
        (match g.action with | .drop => 0#1 | .dropAndReset => 1#1) ++ 0#9 ++ g.last.extractLsb' 16 4 ∧
    word (15 + 4 * e.val) = g.last.extractLsb' 0 16 ∧
    (∀ n, 44 ≤ n → n ≤ 62 → word n = 0) ∧ word 63 = crcWords (copy.take 63)) ∧
  (∀ (size : Nat) (image : AnchorImage) (generation : DWord), size ≤ 1048576 → 128 ≤ image.logBase → 1024 ≤ image.logSize →
    image.logSize ≤ 262144 → image.logBase + image.logSize ≤ size → image.tail < image.logSize →
    let copy := copySnapshot image generation
    copyFailure size copy = none ∧ copyImage copy = image ∧ field copy 2 = generation)

/-- R85: the register begins at FFFFh and takes each word in from bit 15 to bit 0, an input bit shifting it one place toward bit 15 and,
where it differs from the register's bit 15, combining it with 1021h; the CRC of the single word 0000h is the check value the data sheet
gives. R82 to R84: the words of an image's BEGIN and ENTRY records, every bit not named 0, and of its COMMIT. R82 to R86, R150, R151: the
scan that reads the image the log writer writes for a bank finds it complete, and the replay of each of its ENTRY records writes what the
entry's home write writes. -/
def Obligations.ScanFindsTheWrittenImage : Prop :=
  (let bit := fun (c : Word) (b : Bool) => if c.getLsbD 15 = b then c <<< 1 else (c <<< 1) ^^^ 0x1021
   (∀ crc w : Word,
     crcWord crc w = [15, 14, 13, 12, 11, 10, 9, 8, 7, 6, 5, 4, 3, 2, 1, 0].foldl (fun c i => bit c (w.getLsbD i)) crc) ∧
   crcWords [] = 0xFFFF ∧ (∀ ws w, crcWords (ws ++ [w]) = crcWord (crcWords ws) w) ∧ crcWords [0x0000] = 0x1D0F) ∧
  (∀ (q : DWord) (es : List Entry),
    let record := fun e : Entry =>
      [0x5#4 ++ BitVec.ofBool e.lanes.upper ++ BitVec.ofBool e.lanes.lower ++ 0#6 ++ e.addr.extractLsb' 16 4,
        e.addr.extractLsb' 0 16, e.data]
    imageBody q es = [0xA000, q.extractLsb' 16 16, q.extractLsb' 0 16, BitVec.ofNat 16 es.length] ++ es.flatMap record ∧
    wholeImage q es = imageBody q es ++ [0xC000, q.extractLsb' 16 16, q.extractLsb' 0 16, crcWords (imageBody q es)]) ∧
  ∀ (s : State) (es : List Entry), s.start.scan.expected ≠ 0 → 1 ≤ es.length → es.length ≤ 256 →
    (∀ e ∈ es, e.sound ∧ e.addr.toNat < s.memSize ∧ 128 ≤ e.addr.toNat ∧
      ¬(s.anchor.image.logBase ≤ e.addr.toNat ∧ e.addr.toNat < s.anchor.image.logBase + s.anchor.image.logSize)) →
    s.start.scan.scanned + (3 * es.length + 8) ≤ s.anchor.image.logSize → s.start.phase = .scan 0 0 0 →
    let read := fun (t : State) (w : Word) =>
      match t.start.phase with
      | .scan word count head => t.scanWord word count head w
      | _ => t
    (wholeImage s.start.scan.expected es).foldl read s =
      { s with start := { s.start with
        scan := { s.start.scan with crc := crcWords (imageBody s.start.scan.expected es) }
        phase := .replay es.length 0 [] } } ∧
    ∀ e ∈ es, replayWrite (entryRecord e) = ⟨true, e.addr, e.lanes, e.data⟩

end
end

