-- ==== Sys2Proof/Laws/Memory.lean ====
section
/-! SUPPORT. Laws/Memory.lean: the attached memory: a read after a write, and the canonical form every operation keeps. -/

namespace Sys2Proof.Machine

/-! ## Reading after writing -/

/-- Below the first listed key nothing is listed. -/
theorem readByte_below {m : Memory} {k : Nat} (h : m.all (fun c => decide (k < c.1)) = true) :
    readByte m k = Config.blankByte := by
  induction m with
  | nil => rfl
  | cons c rest ih =>
    simp only [List.all_cons, Bool.and_eq_true, decide_eq_true_eq] at h
    have hne : ¬ c.1 = k := by omega
    simp only [readByte, if_neg hne]
    exact ih h.2

/-- A byte read after a byte write: the new value at the key written, the former value elsewhere. -/
theorem readByte_writeByte {m : Memory} (h : memoryWf m = true) (k j : Nat) (v : Byte) :
    readByte (writeByte m k v) j = if j = k then v else readByte m j := by
  induction m with
  | nil =>
    by_cases hj : j = k
    · subst hj
      simp only [writeByte, if_true]
      split
      · rename_i hv; rw [hv]; rfl
      · simp only [readByte, if_true]
    · have hk : ¬ k = j := fun h => hj h.symm
      simp only [writeByte, if_neg hj]
      split
      · rfl
      · simp only [readByte, if_neg hk]
  | cons c rest ih =>
    obtain ⟨a, b⟩ := c
    simp only [memoryWf, Bool.and_eq_true] at h
    obtain ⟨⟨hb, ha⟩, hr⟩ := h
    by_cases h1 : k < a
    · simp only [writeByte, if_pos h1]
      have hlow : readByte ((a, b) :: rest) k = Config.blankByte := by
        apply readByte_below
        simp only [List.all_cons, Bool.and_eq_true, decide_eq_true_eq]
        refine ⟨h1, List.all_eq_true.2 fun c hc => ?_⟩
        have := List.all_eq_true.1 ha c hc
        simp only [decide_eq_true_eq] at this ⊢
        omega
      split
      · by_cases hj : j = k
        · subst hj; simp_all
        · simp [hj]
      · by_cases hj : j = k
        · subst hj; simp [readByte]
        · have : ¬ k = j := fun h => hj h.symm
          simp [readByte, this, hj]
    · by_cases h2 : a = k
      · subst h2
        simp only [writeByte, Nat.lt_irrefl, if_false, if_true]
        split
        · by_cases hj : j = a
          · subst hj; simp_all [readByte_below ha]
          · have : ¬ a = j := fun h => hj h.symm
            simp [readByte, this, hj]
        · by_cases hj : j = a
          · subst hj; simp [readByte]
          · have : ¬ a = j := fun h => hj h.symm
            simp [readByte, this, hj]
      · simp only [writeByte, if_neg h1, if_neg h2, readByte]
        by_cases h3 : a = j
        · have : ¬ j = k := fun h => h2 (h3.trans h)
          simp [h3, this]
        · simp [h3, ih hr]

/-! ## The canonical form -/

/-- Keys above a bound stay above it when a key above it is written. -/
theorem writeByte_above {m : Memory} {a k : Nat} (v : Byte) (hk : a < k)
    (h : m.all (fun c => decide (a < c.1)) = true) : (writeByte m k v).all (fun c => decide (a < c.1)) = true := by
  induction m with
  | nil => simp only [writeByte]; split <;> simp [hk]
  | cons c rest ih =>
    obtain ⟨x, y⟩ := c
    simp only [List.all_cons, Bool.and_eq_true, decide_eq_true_eq] at h
    simp only [writeByte]
    split
    · split <;> simp [hk, h.1, h.2]
    · split
      · split <;> simp [hk, h.2]
      · simp [h.1, ih h.2]

/-- A byte write keeps the canonical form. -/
theorem writeByte_wf {m : Memory} (h : memoryWf m = true) (k : Nat) (v : Byte) : memoryWf (writeByte m k v) = true := by
  induction m with
  | nil => simp only [writeByte]; split <;> simp_all [memoryWf]
  | cons c rest ih =>
    obtain ⟨a, b⟩ := c
    have hfull := h
    simp only [memoryWf, Bool.and_eq_true] at h
    obtain ⟨⟨hb, ha⟩, hr⟩ := h
    simp only [writeByte]
    split
    · rename_i h1
      split
      · exact hfull
      · rename_i hv
        simp only [memoryWf, Bool.and_eq_true, List.all_cons, decide_eq_true_eq]
        refine ⟨⟨by simpa using hv, h1, List.all_eq_true.2 fun c hc => ?_⟩, ⟨hb, ha⟩, hr⟩
        have := List.all_eq_true.1 ha c hc
        simp only [decide_eq_true_eq] at this ⊢
        omega
    · split
      · rename_i h1 h2
        split
        · exact hr
        · rename_i hv
          subst h2
          simp only [memoryWf, Bool.and_eq_true]
          exact ⟨⟨by simpa using hv, ha⟩, hr⟩
      · rename_i h1 h2
        simp only [memoryWf, Bool.and_eq_true]
        exact ⟨⟨hb, writeByte_above v (by omega) ha⟩, ih hr⟩

/-- A word write keeps the canonical form. -/
theorem writeLanes_wf {m : Memory} (h : memoryWf m = true) (a : Addr) (l : Lanes) (w : Word) :
    memoryWf (writeLanes m a l w) = true := by
  simp only [writeLanes]
  split <;> split <;> simp only [writeByte_wf, h]

/-- A torn write keeps the canonical form. -/
theorem tornWrite_wf {m : Memory} (h : memoryWf m = true) (x : Access) (n : Nat) : memoryWf (tornWrite m x n) = true :=
  writeLanes_wf h _ _ _

/-- The memory of the reset state has the canonical form. -/
theorem reset_memory_wf : memoryWf State.reset.mem = true := rfl

/-! ## Word writes -/

/-- R133: a word write leaves its byte on each lane of its lane set, and every other byte as it was. -/
theorem writeLanes_stored {m : Memory} (h : memoryWf m = true) (a : Addr) (l : Lanes) (w : Word) :
    stored m (writeLanes m a l w) a l w := by
  intro k
  have hne : lowerKey a ≠ upperKey a := by simp [lowerKey, upperKey]
  obtain ⟨u, d⟩ := l
  cases u <;> cases d <;> simp only [writeLanes, if_true, if_false, Bool.false_eq_true, false_and, true_and]
  · exact readByte_writeByte h _ _ _
  · exact readByte_writeByte h _ _ _
  · rw [readByte_writeByte (writeByte_wf h _ _), readByte_writeByte h]
    by_cases h1 : k = lowerKey a
    · have : ¬ k = upperKey a := fun h => hne (h1.symm.trans h)
      simp [h1, hne]
    · simp [h1]

/-- The high part of an append. -/
theorem extract_append_high {n m : Nat} (u : BitVec n) (l : BitVec m) : (u ++ l).extractLsb' m n = u := by
  ext i hi
  simp [BitVec.getLsbD_append, hi]

/-- The low part of an append. -/
theorem extract_append_low {n m : Nat} (u : BitVec n) (l : BitVec m) : (u ++ l).extractLsb' 0 m = l := by
  ext i hi
  simp [BitVec.getLsbD_append, hi]

/-- A vector is the append of its parts. -/
theorem append_extract {n m : Nat} (w : BitVec (n + m)) : w.extractLsb' m n ++ w.extractLsb' 0 m = w := by
  ext i hi
  simp

/-- The upper lane of a joined word. -/
@[simp] theorem upperByte_joinBytes (u l : Byte) : upperByte (joinBytes u l) = u := extract_append_high u l

/-- The lower lane of a joined word. -/
@[simp] theorem lowerByte_joinBytes (u l : Byte) : lowerByte (joinBytes u l) = l := extract_append_low u l

/-- A word is the join of its lanes. -/
@[simp] theorem joinBytes_self (w : Word) : joinBytes (upperByte w) (lowerByte w) = w := append_extract (n := 8) (m := 8) w

/-- A word read after a word write with both lanes. -/
theorem readWord_writeLanes_self {m : Memory} (h : memoryWf m = true) (a : Addr) (w : Word) :
    readWord (writeLanes m a bothLanes w) a = w := by
  have hs := writeLanes_stored h a bothLanes w
  have hne : upperKey a ≠ lowerKey a := by simp [lowerKey, upperKey]
  simp only [readWord]
  rw [hs (upperKey a), hs (lowerKey a)]
  simp [bothLanes, hne]

/-- A word write leaves every other word as it was. -/
theorem readWord_writeLanes_other {m : Memory} (h : memoryWf m = true) {a b : Addr} (hab : b ≠ a) (l : Lanes) (w : Word) :
    readWord (writeLanes m a l w) b = readWord m b := by
  have hs := writeLanes_stored h a l w
  have hn : b.toNat ≠ a.toNat := fun h => hab (BitVec.eq_of_toNat_eq h)
  have e1 : upperKey b ≠ lowerKey a := by simp only [lowerKey, upperKey]; omega
  have e2 : upperKey b ≠ upperKey a := by simp only [upperKey]; omega
  have e3 : lowerKey b ≠ lowerKey a := by simp only [lowerKey]; omega
  have e4 : lowerKey b ≠ upperKey a := by simp only [lowerKey, upperKey]; omega
  simp only [readWord]
  rw [hs (upperKey b), hs (lowerKey b)]
  simp [e1, e2, e3, e4]

end Sys2Proof.Machine
end

