-- ==== Sys2Proof/Laws/Lanes.lean ====
section
/-! SUPPORT. Laws/Lanes.lean: words lane by lane, and the entries a capture leaves (R45 to R49). -/

namespace Sys2Proof.Machine

/-! ## Words -/

/-- Two words that agree on both lanes are equal. -/
theorem word_ext {v w : Word} (hu : upperByte v = upperByte w) (hl : lowerByte v = lowerByte w) : v = w := by
  rw [← joinBytes_self v, ← joinBytes_self w, hu, hl]

@[simp] theorem upperByte_zero : upperByte 0 = 0 := rfl
@[simp] theorem lowerByte_zero : lowerByte 0 = 0 := rfl

@[simp] theorem upperByte_pickLanes (l : Lanes) (n o : Word) :
    upperByte (pickLanes l n o) = if l.upper then upperByte n else upperByte o := by
  unfold pickLanes; exact upperByte_joinBytes _ _

@[simp] theorem lowerByte_pickLanes (l : Lanes) (n o : Word) :
    lowerByte (pickLanes l n o) = if l.lower then lowerByte n else lowerByte o := by
  unfold pickLanes; exact lowerByte_joinBytes _ _

@[simp] theorem upperByte_maskLanes (l : Lanes) (w : Word) :
    upperByte (maskLanes l w) = if l.upper then upperByte w else 0 := by
  unfold maskLanes; rw [upperByte_pickLanes]; rfl

@[simp] theorem lowerByte_maskLanes (l : Lanes) (w : Word) :
    lowerByte (maskLanes l w) = if l.lower then lowerByte w else 0 := by
  unfold maskLanes; rw [lowerByte_pickLanes]; rfl

/-- A word masked to both lanes is itself. -/
@[simp] theorem maskLanes_both (w : Word) : maskLanes bothLanes w = w :=
  word_ext (by simp [bothLanes]) (by simp [bothLanes])

/-- Masking twice is masking once. -/
@[simp] theorem maskLanes_maskLanes (l : Lanes) (w : Word) : maskLanes l (maskLanes l w) = maskLanes l w := by
  apply word_ext
  · cases h : l.upper <;> simp [h]
  · cases h : l.lower <;> simp [h]

/-- A masked word stays masked when more lanes are written. -/
theorem pickLanes_masked {k : Lanes} {e : Word} (l : Lanes) (d : Word) (he : e = maskLanes k e) :
    pickLanes l d e = maskLanes (laneUnion k l) (pickLanes l d e) := by
  have hu : k.upper = false → upperByte e = 0 := fun h => by rw [he]; simp [h]
  have hl : k.lower = false → lowerByte e = 0 := fun h => by rw [he]; simp [h]
  apply word_ext
  · cases h1 : l.upper <;> cases h2 : k.upper <;> simp [laneUnion, h1, h2, hu]
  · cases h1 : l.lower <;> cases h2 : k.lower <;> simp [laneUnion, h1, h2, hl]

/-! ## Captures -/

/-- R48: a merge keeps an entry sound. -/
theorem mergeEntry_sound {e : Entry} (h : e.sound) (d : Word) (l : Lanes) : (mergeEntry e d l).sound := by
  refine ⟨?_, pickLanes_masked l d h.2⟩
  have := h.1
  obtain ⟨u, v⟩ := l
  cases h1 : e.lanes.upper <;> cases h2 : e.lanes.lower <;> cases u <;> cases v <;>
    simp_all [noLane, mergeEntry, laneUnion]

@[simp] theorem mergeEntry_addr (e : Entry) (d : Word) (l : Lanes) : (mergeEntry e d l).addr = e.addr := rfl
@[simp] theorem mergeEntry_applied (e : Entry) (d : Word) (l : Lanes) : (mergeEntry e d l).applied = e.applied := rfl

/-- R47: the entry a capture makes is sound. -/
theorem newEntry_sound (a : Addr) (d : Word) {l : Lanes} (h : noLane l = false) :
    (⟨a, maskLanes l d, l, false⟩ : Entry).sound := ⟨h, (maskLanes_maskLanes l d).symm⟩

/-- The entries after a merge of the word at an address. -/
def mergedAt (es : List Entry) (a : Addr) (d : Word) (l : Lanes) : List Entry :=
  es.map fun e => if e.addr == a then mergeEntry e d l else e

theorem mergedAt_addr (es : List Entry) (a : Addr) (d : Word) (l : Lanes) :
    (mergedAt es a d l).map (·.addr) = es.map (·.addr) := by
  simp only [mergedAt, List.map_map]
  apply List.map_congr_left
  intro e _
  simp only [Function.comp_apply]
  split <;> rfl

theorem mergedAt_applied (es : List Entry) (a : Addr) (d : Word) (l : Lanes) :
    (mergedAt es a d l).map (·.applied) = es.map (·.applied) := by
  simp only [mergedAt, List.map_map]
  apply List.map_congr_left
  intro e _
  simp only [Function.comp_apply]
  split <;> rfl

/-- R47 to R49: everything a capture can do: merge, append, or overflow. -/
theorem captureEntries_cases (es : List Entry) (a : Addr) (d : Word) (l : Lanes) :
    (es.any (·.addr == a) = true ∧ captureEntries es a d l = some (mergedAt es a d l)) ∨
    (es.any (·.addr == a) = false ∧ es.length < 256 ∧
      captureEntries es a d l = some (es ++ [⟨a, maskLanes l d, l, false⟩])) ∨
    (es.any (·.addr == a) = false ∧ 256 ≤ es.length ∧ captureEntries es a d l = none) := by
  unfold captureEntries
  split
  · rename_i h; exact .inl ⟨h, rfl⟩
  · rename_i h
    split
    · rename_i h2; exact .inr (.inl ⟨by simpa using h, h2, rfl⟩)
    · rename_i h2; exact .inr (.inr ⟨by simpa using h, by simpa [Config.bankCapacity] using h2, rfl⟩)

/-- The applied count is the count of the applied flags. -/
theorem appliedCount_eq (k : Bank) : k.appliedCount = (k.entries.map (·.applied)).countP id := by
  simp only [Bank.appliedCount, List.countP_map]
  rfl

/-- R44, R45, R47, R48: a capture keeps a bank's entries sound and applies none. -/
theorem captureEntries_sound {k : Bank} (h : k.entriesSound) {a : Addr} {d : Word} {l : Lanes} (hl : noLane l = false)
    {es : List Entry} (he : captureEntries k.entries a d l = some es) :
    ({ k with entries := es } : Bank).entriesSound ∧ ({ k with entries := es } : Bank).appliedCount = k.appliedCount := by
  obtain ⟨h1, h2, h3⟩ := h
  rcases captureEntries_cases k.entries a d l with ⟨_, hm⟩ | ⟨ha, hlen, hm⟩ | ⟨_, _, hm⟩
  · rw [hm, Option.some.injEq] at he
    subst he
    refine ⟨⟨?_, ?_, ?_⟩, ?_⟩
    · simpa [mergedAt] using h1
    · show ((mergedAt k.entries a d l).map (·.addr)).Nodup
      rw [mergedAt_addr]
      exact h2
    · intro e he
      simp only [mergedAt, List.mem_map] at he
      obtain ⟨x, hx, rfl⟩ := he
      split
      · exact mergeEntry_sound (h3 x hx) d l
      · exact h3 x hx
    · rw [appliedCount_eq, appliedCount_eq]
      show ((mergedAt k.entries a d l).map (·.applied)).countP id = _
      rw [mergedAt_applied]
  · rw [hm, Option.some.injEq] at he
    subst he
    refine ⟨⟨?_, ?_, ?_⟩, ?_⟩
    · simp only [List.length_append, List.length_cons, List.length_nil]; omega
    · simp only [List.map_append, List.map_cons, List.map_nil]
      rw [List.nodup_append]
      refine ⟨h2, by simp, ?_⟩
      intro x hx y hy
      simp only [List.mem_singleton] at hy
      subst hy
      simp only [List.mem_map] at hx
      obtain ⟨e, he, rfl⟩ := hx
      have := List.any_eq_false.1 ha e he
      simpa using this
    · intro e he
      simp only [List.mem_append, List.mem_singleton] at he
      rcases he with he | rfl
      · exact h3 e he
      · exact newEntry_sound a d hl
    · simp [Bank.appliedCount]
  · rw [hm] at he
    cases he

end Sys2Proof.Machine
end

