-- ==== Sys2Proof/Laws/Ops.lean ====
section
/-! SUPPORT. Laws/Ops.lean: for the shared operations, one lemma each that says what they do, so that a proof about a command
cites it and does not unfold the operation. -/

namespace Sys2Proof.Machine

/-! ## Part states, banks, the held-write slot -/

/-- R3, R21, R173: in these part states the controllers work. -/
theorem working_of_controllerWorks {s : State} (h : s.controllerWorks) : s.start.part.working = true := by
  rcases h with h | h | h <;> simp [h, PartState.working]

theorem not_working_of_not_controllerWorks {s : State} (h : ¬s.controllerWorks) : s.start.part.working = false := by
  unfold State.controllerWorks at h
  cases hp : s.start.part <;> simp_all [PartState.working]

/-- R118, R154: in these part states the anchor writer works. -/
theorem anchorWorks_of_part {s : State}
    (h : s.start.part = .run ∨ s.start.part = .formatting ∨ s.start.part = .recovery) : s.start.part.anchorWorks = true := by
  rcases h with h | h | h <;> simp [h, PartState.anchorWorks]

/-- R11: no write is held that awaits what is named. -/
theorem slotAwaiting_none {s : State} {w : Awaits} (h : ∀ x, s.host.slot = some x → x.awaits ≠ w) : s.slotAwaiting w = none := by
  unfold State.slotAwaiting; split <;> simp_all

/-- R11: the write held that awaits what is named. -/
theorem slotAwaiting_some {s : State} {x : HeldWrite} {w : Awaits} (h : s.host.slot = some x) (h2 : x.awaits = w) :
    s.slotAwaiting w = some x := by
  unfold State.slotAwaiting; simp [h, h2]

/-- R54, R90, R101: the bank in a state with no lower-ranked one beside it is the oldest in that state. -/
theorem oldestIn_eq {s : State} {b : BankId} {st : BankState} (h : (s.bank b).state = st)
    (h2 : (s.bank b.other).state = st → (s.bank b).rank < (s.bank b.other).rank) : s.oldestIn st = some b := by
  unfold State.oldestIn
  cases b <;> simp only [State.bank, BankId.other] at h h2 <;> by_cases h3 : s.bank0.state = st <;>
    by_cases h4 : s.bank1.state = st <;> simp_all
  omega

/-- R70: the hold condition. -/
theorem holds_iff (s : State) (a : Addr) : s.holds a = true ↔ s.heldWord a := by
  simp only [State.holds, State.heldWord, Bank.lookup, Bool.or_eq_true, Bool.and_eq_true, List.find?_isSome]
  constructor
  · rintro (⟨h1, e, he, h2⟩ | ⟨h1, e, he, h2⟩)
    · exact ⟨.b0, h1, e, he, by simpa using h2⟩
    · exact ⟨.b1, h1, e, he, by simpa using h2⟩
  · rintro ⟨b, h1, e, he, h2⟩
    cases b
    · exact .inl ⟨h1, e, he, by simpa using h2⟩
    · exact .inr ⟨h1, e, he, by simpa using h2⟩

/-! ## Promotion -/

/-- R73: the position a promotion names is that of the first unapplied entry of the word. -/
theorem unappliedAt_first {k : Bank} {a : Addr} {i : Nat} (h : k.unappliedAt a = some i) :
    ∃ e, firstUnapplied k.entries (·.addr = a) i e := by
  unfold Bank.unappliedAt at h
  rw [List.findIdx?_eq_some_iff_getElem] at h
  obtain ⟨hi, h1, h2⟩ := h
  simp only [Bool.and_eq_true, beq_iff_eq, Bool.not_eq_true'] at h1
  refine ⟨k.entries[i], by simp [hi], h1.1, h1.2, fun j hj x hx => ?_⟩
  have := h2 j hj
  simp [List.getElem?_eq_getElem (show j < k.entries.length by omega)] at hx
  subst hx
  simpa using this

theorem unappliedAt_none {k : Bank} {a : Addr} (h : k.unappliedAt a = none) : ∀ e ∈ k.entries, e.addr = a → e.applied = true := by
  unfold Bank.unappliedAt at h
  rw [List.findIdx?_eq_none_iff] at h
  intro e he ha
  simpa [ha] using h e he

/-- R73: a promotion request changes one bank alone, as `Bank.promoted` says. -/
theorem promoteIn_spec (s : State) (b : BankId) (a : Addr) : ∃ k, (s.bank b).promoted a k ∧ s.promoteIn b a = s.setBank b k := by
  have same : s.setBank b (s.bank b) = s := by cases b <;> rfl
  unfold State.promoteIn Bank.promoted
  by_cases h : (s.bank b).state = .applying
  · cases hu : (s.bank b).unappliedAt a with
    | some i =>
      obtain ⟨e, he⟩ := unappliedAt_first hu
      exact ⟨_, .inl ⟨h, i, e, he, rfl⟩, by simp [h]⟩
    | none => exact ⟨_, .inr ⟨.inr (unappliedAt_none hu), rfl⟩, by simp [h, same]⟩
  · exact ⟨_, .inr ⟨.inl h, rfl⟩, by simp [h, same]⟩

/-! ## Cycles -/

/-- R2, R3: a cycle presented to a port that takes it is taken at once. -/
theorem presentCycle_takes {s : State} (h : s.hostTakes) (lines : HostLines) :
    s.presentCycle lines = ({ s with
      pins := { s.pins with host := lines }, host := { s.host with cycleTaken := false, driven := none } } : State).takeCycle := by
  obtain ⟨h1, h2, h3⟩ := h
  unfold State.presentCycle
  simp [State.hostBusy, h2, h3]
  rcases h1 with h1 | h1 | h1 <;> simp [h1, PartState.working]

/-- R1, R2: a write cycle with a lane, presented to a port that takes it, is a write taken. -/
theorem hostWrite_takes {s : State} (h : s.hostTakes) (a : Addr) (d : Word) {l : Lanes} (oe : Bool) (hl : noLane l = false) :
    s.presentCycle (writeLines a d l oe) = (s.onBus (writeLines a d l oe)).takeWrite ⟨true, a, d, l⟩ := by
  simp only [presentCycle_takes h, State.takeCycle, recognised, writeLines]
  simp [State.onBus, hl]

/-- R1, R2: a read cycle with a lane, presented to a port that takes it, is a read taken. -/
theorem hostRead_takes {s : State} (h : s.hostTakes) (a : Addr) (d : Word) {l : Lanes} (hl : noLane l = false) :
    s.presentCycle (readLines a l d) = (s.onBus (readLines a l d)).takeRead ⟨false, a, d, l⟩ := by
  simp only [presentCycle_takes h, State.takeCycle, recognised, readLines]
  simp [State.onBus, hl]

/-- R6, R7: the third test of the classification. -/
theorem inLog_iff (s : State) (a : Addr) : s.inLog a = true ↔ s.logRegionHas a := by
  unfold State.inLog State.regionsInForce State.logRegionHas
  cases s.start.part <;> simp [LogRegion.contains, State.imageRegion]
  cases s.anchor.format with
  | none => simp
  | some j => cases hf : j.former <;> simp [hf, or_comm]

/-- R2, R3: when a waiting cycle is taken. -/
theorem cycleReady_iff (s : State) :
    s.cycleReady = true ↔ s.hostTakes ∧ recognised s.pins.host ≠ none ∧ s.host.cycleTaken = false := by
  unfold State.cycleReady State.cycleWaiting State.hostBusy State.hostTakes State.controllerWorks
  cases s.start.part <;> simp [PartState.working, Option.isSome_iff_ne_none] <;> tauto

/-- R178: a counter counts once and stays at its end. -/
theorem countOnce_eq (c : DWord) : countOnce c = counted c := by
  unfold countOnce counted
  split
  · rename_i h; subst h; rfl
  · rename_i h
    rw [if_neg]
    intro e; exact h (by rw [e]; decide)

/-! ## The memory port -/

/-- R136: the claimant's access in flight. -/
theorem flightOf_eq {s : State} {who : Claimant} {x : Access} (h : s.port.inFlight = some ⟨who, x⟩) : s.flightOf who = some x := by
  simp [State.flightOf, h]

/-- R132, R133: a write access lands, a read access leaves memory, and the port is IDLE. -/
theorem landed_write (s : State) (a : Addr) (l : Lanes) (w : Word) :
    s.landed ⟨true, a, l, w⟩ = s.portDone (writeLanes s.mem a l w) := by simp [State.landed, State.portDone]

theorem landed_read (s : State) (a : Addr) (l : Lanes) (w : Word) : s.landed ⟨false, a, l, w⟩ = s.portDone s.mem := by
  simp [State.landed, State.portDone]

/-! ## Entries -/

/-- R104: marking an unapplied entry sets it alone, and the applied count is one higher. -/
theorem applyAt_count {es : List Entry} {i : Nat} {e : Entry} (h : es[i]? = some e) (ha : e.applied = false) :
    applyAt es i = es.set i { e with applied := true } ∧
      (es.set i { e with applied := true }).countP (·.applied) = es.countP (·.applied) + 1 := by
  obtain ⟨hl, he⟩ := List.getElem?_eq_some_iff.mp h
  constructor
  · unfold applyAt; rw [List.modify_eq_set_getElem?]; simp [h]
  · rw [List.countP_set hl]; simp [he, ha]

/-! ## Resets, the end of start-up, the end of the scan -/

/-- R140, R141: what a reset leaves of the memory. -/
theorem memoryAtReset_spec {s : State} (hm : memoryWf s.mem = true) (cause : ResetCause) :
    s.memoryAfter cause (s.memoryAtReset cause) := by
  unfold State.memoryAfter State.memoryAtReset
  cases hf : s.port.inFlight with
  | none => simp
  | some f =>
    obtain ⟨who, wr, a, l, d⟩ := f
    cases wr
    · simp
    · simp only [Bool.not_true, Bool.true_eq_false, if_false]
      by_cases hx : s.flightEnds cause = true
      · have hx' : s.start.part = .halted ∧ cause ≠ .powerOn := by simpa [State.flightEnds] using hx
        rw [if_pos hx, if_pos hx']; exact writeLanes_stored hm _ _ _
      · have hx' : ¬(s.start.part = .halted ∧ cause ≠ .powerOn) := by simpa [State.flightEnds] using hx
        rw [if_neg hx, if_neg hx']
        intro k h1 h2
        have := writeLanes_stored hm a l (joinBytes (Config.tornByte (s.torn + 1)) (Config.tornByte s.torn)) k
        simp only [tornWrite, Bool.false_eq_true, if_false] at this ⊢
        rw [this]; split <;> simp_all

/-- R159: the end of a start-up. -/
theorem endStartup_spec (s : State) (part : PartState) : s.startupEnds part (s.endStartup part) := by
  unfold State.startupEnds
  have : (s.cycleWaiting && !s.hostBusy) = true ↔
      recognised s.pins.host ≠ none ∧ s.host.cycleTaken = false ∧ s.host.access = none ∧ s.host.slot = none := by
    simp [State.cycleWaiting, State.hostBusy, Option.isSome_iff_ne_none]; tauto
  dsimp only
  rw [← this]
  unfold State.endStartup
  exact ⟨fun h => by rw [if_neg h]; rfl, fun h => by rw [if_pos h]; rfl⟩

/-- R154: when a closing write is needed. -/
theorem needsClosing_iff (r : StartupReport) : r.needsClosing = true ↔ 0 < r.replayed ∨ r.copiesInvalid = 1 := by
  simp [StartupReport.needsClosing]

/-- R153, R154: the end of the scan. -/
theorem endScan_spec (s : State) : s.scanEnds s.endScan := by
  have hr : s.settleScan.start.report.needsClosing = true ↔ 0 < s.start.report.replayed ∨ s.start.report.copiesInvalid = 1 :=
    needsClosing_iff _
  unfold State.scanEnds State.endScan
  refine ⟨fun h1 h2 => ?_, fun h1 => ?_⟩
  · have hw : s.settleScan.anchor.write = none := h2
    simp only [hr.mpr h1, if_true, State.requestWrite, hw]
    rfl
  · rw [if_neg (fun h => h1 (hr.mp h))]
    exact endStartup_spec _ _

/-- R117: the order of generations. -/
theorem newerGeneration_iff (g h : DWord) : newerGeneration g h = true ↔ isNewer g h := by simp [newerGeneration, isNewer]

/-! ## The management port -/

/-- R161: the port answers at 34h plus ADR[1:0]. -/
theorem addressed_iff (s : State) (target : BitVec 7) : s.addressed target ↔ target = s.targetAddress := by
  unfold State.addressed State.targetAddress
  have := s.mgmt.adr.isLt
  constructor
  · intro h; apply BitVec.eq_of_toNat_eq; simp [h]; omega
  · intro h; simp [h]; omega

/-- R174, R176: a fault record is fifteen bytes, the count behind it apart. -/
theorem FaultRecord.bytes_length (r : FaultRecord) : r.bytes.length = 15 := by
  simp [FaultRecord.bytes, addrBytes, dwordBytes, bigEndian]

end Sys2Proof.Machine
end

