-- ==== Sys2Proof/Laws/State.lean ====
section
/-! SUPPORT. Laws/State.lean: what each named update of the state leaves alone, one lemma per field, true by rfl, and the reads
of the fields it writes. -/

namespace Sys2Proof.Machine

variable (s : State)

/-! ## Banks -/

@[simp] theorem State.bank_b0 : s.bank .b0 = s.bank0 := rfl
@[simp] theorem State.bank_b1 : s.bank .b1 = s.bank1 := rfl
@[simp] theorem State.setBank_b0_bank0 (k : Bank) : (s.setBank .b0 k).bank0 = k := rfl
@[simp] theorem State.setBank_b1_bank1 (k : Bank) : (s.setBank .b1 k).bank1 = k := rfl
@[simp] theorem State.setBank_b0_bank1 (k : Bank) : (s.setBank .b0 k).bank1 = s.bank1 := rfl
@[simp] theorem State.setBank_b1_bank0 (k : Bank) : (s.setBank .b1 k).bank0 = s.bank0 := rfl
@[simp] theorem State.setBank_bank_self (b : BankId) (k : Bank) : (s.setBank b k).bank b = k := by cases b <;> rfl
@[simp] theorem State.setBank_bank_other (b : BankId) (k : Bank) : (s.setBank b k).bank b.other = s.bank b.other := by
  cases b <;> rfl
@[simp] theorem State.setBank_self (b : BankId) : s.setBank b (s.bank b) = s := by cases b <;> rfl
@[simp] theorem State.setBank_setBank (b : BankId) (k l : Bank) : (s.setBank b k).setBank b l = s.setBank b l := by
  cases b <;> rfl

@[simp] theorem State.setBank_host (b : BankId) (k : Bank) : (s.setBank b k).host = s.host := by cases b <;> rfl
@[simp] theorem State.setBank_txn (b : BankId) (k : Bank) : (s.setBank b k).txn = s.txn := by cases b <;> rfl
@[simp] theorem State.setBank_log (b : BankId) (k : Bank) : (s.setBank b k).log = s.log := by cases b <;> rfl
@[simp] theorem State.setBank_apply (b : BankId) (k : Bank) : (s.setBank b k).apply = s.apply := by cases b <;> rfl
@[simp] theorem State.setBank_anchor (b : BankId) (k : Bank) : (s.setBank b k).anchor = s.anchor := by cases b <;> rfl
@[simp] theorem State.setBank_port (b : BankId) (k : Bank) : (s.setBank b k).port = s.port := by cases b <;> rfl
@[simp] theorem State.setBank_start (b : BankId) (k : Bank) : (s.setBank b k).start = s.start := by cases b <;> rfl
@[simp] theorem State.setBank_mgmt (b : BankId) (k : Bank) : (s.setBank b k).mgmt = s.mgmt := by cases b <;> rfl
@[simp] theorem State.setBank_pins (b : BankId) (k : Bank) : (s.setBank b k).pins = s.pins := by cases b <;> rfl
@[simp] theorem State.setBank_mem (b : BankId) (k : Bank) : (s.setBank b k).mem = s.mem := by cases b <;> rfl
@[simp] theorem State.setBank_torn (b : BankId) (k : Bank) : (s.setBank b k).torn = s.torn := by cases b <;> rfl
@[simp] theorem State.setBank_pending (b : BankId) (k : Bank) : (s.setBank b k).pending = s.pending := by cases b <;> rfl

/-! ## `State.claim` -/

@[simp] theorem State.claim_host (who : Claimant) (x : Access) : (s.claim who x).host = s.host := rfl
@[simp] theorem State.claim_txn (who : Claimant) (x : Access) : (s.claim who x).txn = s.txn := rfl
@[simp] theorem State.claim_bank0 (who : Claimant) (x : Access) : (s.claim who x).bank0 = s.bank0 := rfl
@[simp] theorem State.claim_bank1 (who : Claimant) (x : Access) : (s.claim who x).bank1 = s.bank1 := rfl
@[simp] theorem State.claim_log (who : Claimant) (x : Access) : (s.claim who x).log = s.log := rfl
@[simp] theorem State.claim_apply (who : Claimant) (x : Access) : (s.claim who x).apply = s.apply := rfl
@[simp] theorem State.claim_anchor (who : Claimant) (x : Access) : (s.claim who x).anchor = s.anchor := rfl
@[simp] theorem State.claim_start (who : Claimant) (x : Access) : (s.claim who x).start = s.start := rfl
@[simp] theorem State.claim_mgmt (who : Claimant) (x : Access) : (s.claim who x).mgmt = s.mgmt := rfl
@[simp] theorem State.claim_pins (who : Claimant) (x : Access) : (s.claim who x).pins = s.pins := rfl
@[simp] theorem State.claim_mem (who : Claimant) (x : Access) : (s.claim who x).mem = s.mem := rfl
@[simp] theorem State.claim_torn (who : Claimant) (x : Access) : (s.claim who x).torn = s.torn := rfl
@[simp] theorem State.claim_pending (who : Claimant) (x : Access) : (s.claim who x).pending = s.pending := rfl

/-! ## `State.landed` -/

@[simp] theorem State.landed_host (x : Access) : (s.landed x).host = s.host := rfl
@[simp] theorem State.landed_txn (x : Access) : (s.landed x).txn = s.txn := rfl
@[simp] theorem State.landed_bank0 (x : Access) : (s.landed x).bank0 = s.bank0 := rfl
@[simp] theorem State.landed_bank1 (x : Access) : (s.landed x).bank1 = s.bank1 := rfl
@[simp] theorem State.landed_log (x : Access) : (s.landed x).log = s.log := rfl
@[simp] theorem State.landed_apply (x : Access) : (s.landed x).apply = s.apply := rfl
@[simp] theorem State.landed_anchor (x : Access) : (s.landed x).anchor = s.anchor := rfl
@[simp] theorem State.landed_start (x : Access) : (s.landed x).start = s.start := rfl
@[simp] theorem State.landed_mgmt (x : Access) : (s.landed x).mgmt = s.mgmt := rfl
@[simp] theorem State.landed_pins (x : Access) : (s.landed x).pins = s.pins := rfl
@[simp] theorem State.landed_torn (x : Access) : (s.landed x).torn = s.torn := rfl
@[simp] theorem State.landed_pending (x : Access) : (s.landed x).pending = s.pending := rfl

/-! ## `State.enterHalted` -/

@[simp] theorem State.enterHalted_host : (s.enterHalted).host = s.host := rfl
@[simp] theorem State.enterHalted_txn : (s.enterHalted).txn = s.txn := rfl
@[simp] theorem State.enterHalted_bank0 : (s.enterHalted).bank0 = s.bank0 := rfl
@[simp] theorem State.enterHalted_bank1 : (s.enterHalted).bank1 = s.bank1 := rfl
@[simp] theorem State.enterHalted_log : (s.enterHalted).log = s.log := rfl
@[simp] theorem State.enterHalted_apply : (s.enterHalted).apply = s.apply := rfl
@[simp] theorem State.enterHalted_anchor : (s.enterHalted).anchor = s.anchor := rfl
@[simp] theorem State.enterHalted_mgmt : (s.enterHalted).mgmt = s.mgmt := rfl
@[simp] theorem State.enterHalted_pins : (s.enterHalted).pins = s.pins := rfl
@[simp] theorem State.enterHalted_mem : (s.enterHalted).mem = s.mem := rfl
@[simp] theorem State.enterHalted_torn : (s.enterHalted).torn = s.torn := rfl
@[simp] theorem State.enterHalted_pending : (s.enterHalted).pending = s.pending := rfl

/-! ## `State.offer` -/

@[simp] theorem State.offer_host (r : FaultRecord) : (s.offer r).host = s.host := rfl
@[simp] theorem State.offer_txn (r : FaultRecord) : (s.offer r).txn = s.txn := rfl
@[simp] theorem State.offer_bank0 (r : FaultRecord) : (s.offer r).bank0 = s.bank0 := rfl
@[simp] theorem State.offer_bank1 (r : FaultRecord) : (s.offer r).bank1 = s.bank1 := rfl
@[simp] theorem State.offer_log (r : FaultRecord) : (s.offer r).log = s.log := rfl
@[simp] theorem State.offer_apply (r : FaultRecord) : (s.offer r).apply = s.apply := rfl
@[simp] theorem State.offer_anchor (r : FaultRecord) : (s.offer r).anchor = s.anchor := rfl
@[simp] theorem State.offer_port (r : FaultRecord) : (s.offer r).port = s.port := rfl
@[simp] theorem State.offer_start (r : FaultRecord) : (s.offer r).start = s.start := rfl
@[simp] theorem State.offer_pins (r : FaultRecord) : (s.offer r).pins = s.pins := rfl
@[simp] theorem State.offer_mem (r : FaultRecord) : (s.offer r).mem = s.mem := rfl
@[simp] theorem State.offer_torn (r : FaultRecord) : (s.offer r).torn = s.torn := rfl
@[simp] theorem State.offer_pending (r : FaultRecord) : (s.offer r).pending = s.pending := rfl

/-! ## `State.offerRefused` -/

@[simp] theorem State.offerRefused_host (c : Reason) (a : Addr) (e : Option (Fin 8)) : (s.offerRefused c a e).host = s.host := rfl
@[simp] theorem State.offerRefused_txn (c : Reason) (a : Addr) (e : Option (Fin 8)) : (s.offerRefused c a e).txn = s.txn := rfl
@[simp] theorem State.offerRefused_bank0 (c : Reason) (a : Addr) (e : Option (Fin 8)) : (s.offerRefused c a e).bank0 = s.bank0 := rfl
@[simp] theorem State.offerRefused_bank1 (c : Reason) (a : Addr) (e : Option (Fin 8)) : (s.offerRefused c a e).bank1 = s.bank1 := rfl
@[simp] theorem State.offerRefused_log (c : Reason) (a : Addr) (e : Option (Fin 8)) : (s.offerRefused c a e).log = s.log := rfl
@[simp] theorem State.offerRefused_apply (c : Reason) (a : Addr) (e : Option (Fin 8)) : (s.offerRefused c a e).apply = s.apply := rfl
@[simp] theorem State.offerRefused_anchor (c : Reason) (a : Addr) (e : Option (Fin 8)) : (s.offerRefused c a e).anchor = s.anchor := rfl
@[simp] theorem State.offerRefused_port (c : Reason) (a : Addr) (e : Option (Fin 8)) : (s.offerRefused c a e).port = s.port := rfl
@[simp] theorem State.offerRefused_start (c : Reason) (a : Addr) (e : Option (Fin 8)) : (s.offerRefused c a e).start = s.start := rfl
@[simp] theorem State.offerRefused_pins (c : Reason) (a : Addr) (e : Option (Fin 8)) : (s.offerRefused c a e).pins = s.pins := rfl
@[simp] theorem State.offerRefused_mem (c : Reason) (a : Addr) (e : Option (Fin 8)) : (s.offerRefused c a e).mem = s.mem := rfl
@[simp] theorem State.offerRefused_torn (c : Reason) (a : Addr) (e : Option (Fin 8)) : (s.offerRefused c a e).torn = s.torn := rfl
@[simp] theorem State.offerRefused_pending (c : Reason) (a : Addr) (e : Option (Fin 8)) : (s.offerRefused c a e).pending = s.pending := rfl

/-! ## `State.countSilent` -/

@[simp] theorem State.countSilent_host : (s.countSilent).host = s.host := rfl
@[simp] theorem State.countSilent_bank0 : (s.countSilent).bank0 = s.bank0 := rfl
@[simp] theorem State.countSilent_bank1 : (s.countSilent).bank1 = s.bank1 := rfl
@[simp] theorem State.countSilent_log : (s.countSilent).log = s.log := rfl
@[simp] theorem State.countSilent_apply : (s.countSilent).apply = s.apply := rfl
@[simp] theorem State.countSilent_anchor : (s.countSilent).anchor = s.anchor := rfl
@[simp] theorem State.countSilent_port : (s.countSilent).port = s.port := rfl
@[simp] theorem State.countSilent_start : (s.countSilent).start = s.start := rfl
@[simp] theorem State.countSilent_mgmt : (s.countSilent).mgmt = s.mgmt := rfl
@[simp] theorem State.countSilent_pins : (s.countSilent).pins = s.pins := rfl
@[simp] theorem State.countSilent_mem : (s.countSilent).mem = s.mem := rfl
@[simp] theorem State.countSilent_torn : (s.countSilent).torn = s.torn := rfl
@[simp] theorem State.countSilent_pending : (s.countSilent).pending = s.pending := rfl

/-! ## `State.clearSlot` -/

@[simp] theorem State.clearSlot_txn : (s.clearSlot).txn = s.txn := rfl
@[simp] theorem State.clearSlot_bank0 : (s.clearSlot).bank0 = s.bank0 := rfl
@[simp] theorem State.clearSlot_bank1 : (s.clearSlot).bank1 = s.bank1 := rfl
@[simp] theorem State.clearSlot_log : (s.clearSlot).log = s.log := rfl
@[simp] theorem State.clearSlot_apply : (s.clearSlot).apply = s.apply := rfl
@[simp] theorem State.clearSlot_anchor : (s.clearSlot).anchor = s.anchor := rfl
@[simp] theorem State.clearSlot_port : (s.clearSlot).port = s.port := rfl
@[simp] theorem State.clearSlot_start : (s.clearSlot).start = s.start := rfl
@[simp] theorem State.clearSlot_mgmt : (s.clearSlot).mgmt = s.mgmt := rfl
@[simp] theorem State.clearSlot_pins : (s.clearSlot).pins = s.pins := rfl
@[simp] theorem State.clearSlot_mem : (s.clearSlot).mem = s.mem := rfl
@[simp] theorem State.clearSlot_torn : (s.clearSlot).torn = s.torn := rfl
@[simp] theorem State.clearSlot_pending : (s.clearSlot).pending = s.pending := rfl

/-! ## `State.holdWrite` -/

@[simp] theorem State.holdWrite_txn (h : HeldWrite) : (s.holdWrite h).txn = s.txn := rfl
@[simp] theorem State.holdWrite_bank0 (h : HeldWrite) : (s.holdWrite h).bank0 = s.bank0 := rfl
@[simp] theorem State.holdWrite_bank1 (h : HeldWrite) : (s.holdWrite h).bank1 = s.bank1 := rfl
@[simp] theorem State.holdWrite_log (h : HeldWrite) : (s.holdWrite h).log = s.log := rfl
@[simp] theorem State.holdWrite_apply (h : HeldWrite) : (s.holdWrite h).apply = s.apply := rfl
@[simp] theorem State.holdWrite_anchor (h : HeldWrite) : (s.holdWrite h).anchor = s.anchor := rfl
@[simp] theorem State.holdWrite_port (h : HeldWrite) : (s.holdWrite h).port = s.port := rfl
@[simp] theorem State.holdWrite_start (h : HeldWrite) : (s.holdWrite h).start = s.start := rfl
@[simp] theorem State.holdWrite_mgmt (h : HeldWrite) : (s.holdWrite h).mgmt = s.mgmt := rfl
@[simp] theorem State.holdWrite_pins (h : HeldWrite) : (s.holdWrite h).pins = s.pins := rfl
@[simp] theorem State.holdWrite_mem (h : HeldWrite) : (s.holdWrite h).mem = s.mem := rfl
@[simp] theorem State.holdWrite_torn (h : HeldWrite) : (s.holdWrite h).torn = s.torn := rfl
@[simp] theorem State.holdWrite_pending (h : HeldWrite) : (s.holdWrite h).pending = s.pending := rfl

/-! ## `State.passWrite` -/

@[simp] theorem State.passWrite_txn (a : Addr) (d : Word) (l : Lanes) : (s.passWrite a d l).txn = s.txn := rfl
@[simp] theorem State.passWrite_bank0 (a : Addr) (d : Word) (l : Lanes) : (s.passWrite a d l).bank0 = s.bank0 := rfl
@[simp] theorem State.passWrite_bank1 (a : Addr) (d : Word) (l : Lanes) : (s.passWrite a d l).bank1 = s.bank1 := rfl
@[simp] theorem State.passWrite_log (a : Addr) (d : Word) (l : Lanes) : (s.passWrite a d l).log = s.log := rfl
@[simp] theorem State.passWrite_apply (a : Addr) (d : Word) (l : Lanes) : (s.passWrite a d l).apply = s.apply := rfl
@[simp] theorem State.passWrite_anchor (a : Addr) (d : Word) (l : Lanes) : (s.passWrite a d l).anchor = s.anchor := rfl
@[simp] theorem State.passWrite_start (a : Addr) (d : Word) (l : Lanes) : (s.passWrite a d l).start = s.start := rfl
@[simp] theorem State.passWrite_mgmt (a : Addr) (d : Word) (l : Lanes) : (s.passWrite a d l).mgmt = s.mgmt := rfl
@[simp] theorem State.passWrite_pins (a : Addr) (d : Word) (l : Lanes) : (s.passWrite a d l).pins = s.pins := rfl
@[simp] theorem State.passWrite_mem (a : Addr) (d : Word) (l : Lanes) : (s.passWrite a d l).mem = s.mem := rfl
@[simp] theorem State.passWrite_torn (a : Addr) (d : Word) (l : Lanes) : (s.passWrite a d l).torn = s.torn := rfl
@[simp] theorem State.passWrite_pending (a : Addr) (d : Word) (l : Lanes) : (s.passWrite a d l).pending = s.pending := rfl

/-! ## `State.drive` -/

@[simp] theorem State.drive_txn (w : Word) : (s.drive w).txn = s.txn := rfl
@[simp] theorem State.drive_bank0 (w : Word) : (s.drive w).bank0 = s.bank0 := rfl
@[simp] theorem State.drive_bank1 (w : Word) : (s.drive w).bank1 = s.bank1 := rfl
@[simp] theorem State.drive_log (w : Word) : (s.drive w).log = s.log := rfl
@[simp] theorem State.drive_apply (w : Word) : (s.drive w).apply = s.apply := rfl
@[simp] theorem State.drive_anchor (w : Word) : (s.drive w).anchor = s.anchor := rfl
@[simp] theorem State.drive_port (w : Word) : (s.drive w).port = s.port := rfl
@[simp] theorem State.drive_start (w : Word) : (s.drive w).start = s.start := rfl
@[simp] theorem State.drive_mgmt (w : Word) : (s.drive w).mgmt = s.mgmt := rfl
@[simp] theorem State.drive_pins (w : Word) : (s.drive w).pins = s.pins := rfl
@[simp] theorem State.drive_mem (w : Word) : (s.drive w).mem = s.mem := rfl
@[simp] theorem State.drive_torn (w : Word) : (s.drive w).torn = s.torn := rfl
@[simp] theorem State.drive_pending (w : Word) : (s.drive w).pending = s.pending := rfl

/-! ## `State.claimRead` -/

@[simp] theorem State.claimRead_txn (c : HostCycle) (f : Word) (n : Lanes) : (s.claimRead c f n).txn = s.txn := rfl
@[simp] theorem State.claimRead_bank0 (c : HostCycle) (f : Word) (n : Lanes) : (s.claimRead c f n).bank0 = s.bank0 := rfl
@[simp] theorem State.claimRead_bank1 (c : HostCycle) (f : Word) (n : Lanes) : (s.claimRead c f n).bank1 = s.bank1 := rfl
@[simp] theorem State.claimRead_log (c : HostCycle) (f : Word) (n : Lanes) : (s.claimRead c f n).log = s.log := rfl
@[simp] theorem State.claimRead_apply (c : HostCycle) (f : Word) (n : Lanes) : (s.claimRead c f n).apply = s.apply := rfl
@[simp] theorem State.claimRead_anchor (c : HostCycle) (f : Word) (n : Lanes) : (s.claimRead c f n).anchor = s.anchor := rfl
@[simp] theorem State.claimRead_start (c : HostCycle) (f : Word) (n : Lanes) : (s.claimRead c f n).start = s.start := rfl
@[simp] theorem State.claimRead_mgmt (c : HostCycle) (f : Word) (n : Lanes) : (s.claimRead c f n).mgmt = s.mgmt := rfl
@[simp] theorem State.claimRead_pins (c : HostCycle) (f : Word) (n : Lanes) : (s.claimRead c f n).pins = s.pins := rfl
@[simp] theorem State.claimRead_mem (c : HostCycle) (f : Word) (n : Lanes) : (s.claimRead c f n).mem = s.mem := rfl
@[simp] theorem State.claimRead_torn (c : HostCycle) (f : Word) (n : Lanes) : (s.claimRead c f n).torn = s.torn := rfl
@[simp] theorem State.claimRead_pending (c : HostCycle) (f : Word) (n : Lanes) : (s.claimRead c f n).pending = s.pending := rfl

/-! ## `State.startWrite` -/

@[simp] theorem State.startWrite_host : (s.startWrite).host = s.host := rfl
@[simp] theorem State.startWrite_txn : (s.startWrite).txn = s.txn := rfl
@[simp] theorem State.startWrite_bank0 : (s.startWrite).bank0 = s.bank0 := rfl
@[simp] theorem State.startWrite_bank1 : (s.startWrite).bank1 = s.bank1 := rfl
@[simp] theorem State.startWrite_log : (s.startWrite).log = s.log := rfl
@[simp] theorem State.startWrite_apply : (s.startWrite).apply = s.apply := rfl
@[simp] theorem State.startWrite_port : (s.startWrite).port = s.port := rfl
@[simp] theorem State.startWrite_start : (s.startWrite).start = s.start := rfl
@[simp] theorem State.startWrite_mgmt : (s.startWrite).mgmt = s.mgmt := rfl
@[simp] theorem State.startWrite_pins : (s.startWrite).pins = s.pins := rfl
@[simp] theorem State.startWrite_mem : (s.startWrite).mem = s.mem := rfl
@[simp] theorem State.startWrite_torn : (s.startWrite).torn = s.torn := rfl
@[simp] theorem State.startWrite_pending : (s.startWrite).pending = s.pending := rfl

/-! ## `State.handOver` -/

@[simp] theorem State.handOver_host (p : PartState) : (s.handOver p).host = s.host := rfl
@[simp] theorem State.handOver_bank0 (p : PartState) : (s.handOver p).bank0 = s.bank0 := rfl
@[simp] theorem State.handOver_bank1 (p : PartState) : (s.handOver p).bank1 = s.bank1 := rfl
@[simp] theorem State.handOver_log (p : PartState) : (s.handOver p).log = s.log := rfl
@[simp] theorem State.handOver_apply (p : PartState) : (s.handOver p).apply = s.apply := rfl
@[simp] theorem State.handOver_anchor (p : PartState) : (s.handOver p).anchor = s.anchor := rfl
@[simp] theorem State.handOver_port (p : PartState) : (s.handOver p).port = s.port := rfl
@[simp] theorem State.handOver_pins (p : PartState) : (s.handOver p).pins = s.pins := rfl
@[simp] theorem State.handOver_mem (p : PartState) : (s.handOver p).mem = s.mem := rfl
@[simp] theorem State.handOver_torn (p : PartState) : (s.handOver p).torn = s.torn := rfl
@[simp] theorem State.handOver_pending (p : PartState) : (s.handOver p).pending = s.pending := rfl

/-! ## `State.writeDone` -/

@[simp] theorem State.writeDone_txn (w : AnchorWrite) : (s.writeDone w).txn = s.txn := rfl
@[simp] theorem State.writeDone_bank0 (w : AnchorWrite) : (s.writeDone w).bank0 = s.bank0 := rfl
@[simp] theorem State.writeDone_bank1 (w : AnchorWrite) : (s.writeDone w).bank1 = s.bank1 := rfl
@[simp] theorem State.writeDone_log (w : AnchorWrite) : (s.writeDone w).log = s.log := rfl
@[simp] theorem State.writeDone_apply (w : AnchorWrite) : (s.writeDone w).apply = s.apply := rfl
@[simp] theorem State.writeDone_port (w : AnchorWrite) : (s.writeDone w).port = s.port := rfl
@[simp] theorem State.writeDone_start (w : AnchorWrite) : (s.writeDone w).start = s.start := rfl
@[simp] theorem State.writeDone_mgmt (w : AnchorWrite) : (s.writeDone w).mgmt = s.mgmt := rfl
@[simp] theorem State.writeDone_pins (w : AnchorWrite) : (s.writeDone w).pins = s.pins := rfl
@[simp] theorem State.writeDone_mem (w : AnchorWrite) : (s.writeDone w).mem = s.mem := rfl
@[simp] theorem State.writeDone_torn (w : AnchorWrite) : (s.writeDone w).torn = s.torn := rfl
@[simp] theorem State.writeDone_pending (w : AnchorWrite) : (s.writeDone w).pending = s.pending := rfl

/-! ## `State.statusDone` -/

@[simp] theorem State.statusDone_host : (s.statusDone).host = s.host := rfl
@[simp] theorem State.statusDone_txn : (s.statusDone).txn = s.txn := rfl
@[simp] theorem State.statusDone_bank0 : (s.statusDone).bank0 = s.bank0 := rfl
@[simp] theorem State.statusDone_bank1 : (s.statusDone).bank1 = s.bank1 := rfl
@[simp] theorem State.statusDone_log : (s.statusDone).log = s.log := rfl
@[simp] theorem State.statusDone_apply : (s.statusDone).apply = s.apply := rfl
@[simp] theorem State.statusDone_anchor : (s.statusDone).anchor = s.anchor := rfl
@[simp] theorem State.statusDone_port : (s.statusDone).port = s.port := rfl
@[simp] theorem State.statusDone_start : (s.statusDone).start = s.start := rfl
@[simp] theorem State.statusDone_pins : (s.statusDone).pins = s.pins := rfl
@[simp] theorem State.statusDone_mem : (s.statusDone).mem = s.mem := rfl
@[simp] theorem State.statusDone_torn : (s.statusDone).torn = s.torn := rfl
@[simp] theorem State.statusDone_pending : (s.statusDone).pending = s.pending := rfl

/-! ## `State.finishFormat` -/

@[simp] theorem State.finishFormat_host : (s.finishFormat).host = s.host := rfl
@[simp] theorem State.finishFormat_bank0 : (s.finishFormat).bank0 = s.bank0 := rfl
@[simp] theorem State.finishFormat_bank1 : (s.finishFormat).bank1 = s.bank1 := rfl
@[simp] theorem State.finishFormat_apply : (s.finishFormat).apply = s.apply := rfl
@[simp] theorem State.finishFormat_port : (s.finishFormat).port = s.port := rfl
@[simp] theorem State.finishFormat_pins : (s.finishFormat).pins = s.pins := rfl
@[simp] theorem State.finishFormat_mem : (s.finishFormat).mem = s.mem := rfl
@[simp] theorem State.finishFormat_torn : (s.finishFormat).torn = s.torn := rfl
@[simp] theorem State.finishFormat_pending : (s.finishFormat).pending = s.pending := rfl

/-! ## `State.settleScan` -/

@[simp] theorem State.settleScan_host : (s.settleScan).host = s.host := rfl
@[simp] theorem State.settleScan_bank0 : (s.settleScan).bank0 = s.bank0 := rfl
@[simp] theorem State.settleScan_bank1 : (s.settleScan).bank1 = s.bank1 := rfl
@[simp] theorem State.settleScan_apply : (s.settleScan).apply = s.apply := rfl
@[simp] theorem State.settleScan_port : (s.settleScan).port = s.port := rfl
@[simp] theorem State.settleScan_mgmt : (s.settleScan).mgmt = s.mgmt := rfl
@[simp] theorem State.settleScan_pins : (s.settleScan).pins = s.pins := rfl
@[simp] theorem State.settleScan_mem : (s.settleScan).mem = s.mem := rfl
@[simp] theorem State.settleScan_torn : (s.settleScan).torn = s.torn := rfl
@[simp] theorem State.settleScan_pending : (s.settleScan).pending = s.pending := rfl

/-! ## `State.discardPartial` -/

@[simp] theorem State.discardPartial_host : (s.discardPartial).host = s.host := rfl
@[simp] theorem State.discardPartial_txn : (s.discardPartial).txn = s.txn := rfl
@[simp] theorem State.discardPartial_bank0 : (s.discardPartial).bank0 = s.bank0 := rfl
@[simp] theorem State.discardPartial_bank1 : (s.discardPartial).bank1 = s.bank1 := rfl
@[simp] theorem State.discardPartial_log : (s.discardPartial).log = s.log := rfl
@[simp] theorem State.discardPartial_apply : (s.discardPartial).apply = s.apply := rfl
@[simp] theorem State.discardPartial_anchor : (s.discardPartial).anchor = s.anchor := rfl
@[simp] theorem State.discardPartial_port : (s.discardPartial).port = s.port := rfl
@[simp] theorem State.discardPartial_pins : (s.discardPartial).pins = s.pins := rfl
@[simp] theorem State.discardPartial_mem : (s.discardPartial).mem = s.mem := rfl
@[simp] theorem State.discardPartial_torn : (s.discardPartial).torn = s.torn := rfl
@[simp] theorem State.discardPartial_pending : (s.discardPartial).pending = s.pending := rfl

/-! ## `State.reportUnformatted` -/

@[simp] theorem State.reportUnformatted_host : (s.reportUnformatted).host = s.host := rfl
@[simp] theorem State.reportUnformatted_txn : (s.reportUnformatted).txn = s.txn := rfl
@[simp] theorem State.reportUnformatted_bank0 : (s.reportUnformatted).bank0 = s.bank0 := rfl
@[simp] theorem State.reportUnformatted_bank1 : (s.reportUnformatted).bank1 = s.bank1 := rfl
@[simp] theorem State.reportUnformatted_log : (s.reportUnformatted).log = s.log := rfl
@[simp] theorem State.reportUnformatted_apply : (s.reportUnformatted).apply = s.apply := rfl
@[simp] theorem State.reportUnformatted_anchor : (s.reportUnformatted).anchor = s.anchor := rfl
@[simp] theorem State.reportUnformatted_port : (s.reportUnformatted).port = s.port := rfl
@[simp] theorem State.reportUnformatted_mgmt : (s.reportUnformatted).mgmt = s.mgmt := rfl
@[simp] theorem State.reportUnformatted_pins : (s.reportUnformatted).pins = s.pins := rfl
@[simp] theorem State.reportUnformatted_mem : (s.reportUnformatted).mem = s.mem := rfl
@[simp] theorem State.reportUnformatted_torn : (s.reportUnformatted).torn = s.torn := rfl
@[simp] theorem State.reportUnformatted_pending : (s.reportUnformatted).pending = s.pending := rfl

/-! ## `State.loadCopy` -/

@[simp] theorem State.loadCopy_txn (c : Copy) (w : List Word) (n : Nat) : (s.loadCopy c w n).txn = s.txn := rfl
@[simp] theorem State.loadCopy_bank0 (c : Copy) (w : List Word) (n : Nat) : (s.loadCopy c w n).bank0 = s.bank0 := rfl
@[simp] theorem State.loadCopy_bank1 (c : Copy) (w : List Word) (n : Nat) : (s.loadCopy c w n).bank1 = s.bank1 := rfl
@[simp] theorem State.loadCopy_log (c : Copy) (w : List Word) (n : Nat) : (s.loadCopy c w n).log = s.log := rfl
@[simp] theorem State.loadCopy_apply (c : Copy) (w : List Word) (n : Nat) : (s.loadCopy c w n).apply = s.apply := rfl
@[simp] theorem State.loadCopy_port (c : Copy) (w : List Word) (n : Nat) : (s.loadCopy c w n).port = s.port := rfl
@[simp] theorem State.loadCopy_mgmt (c : Copy) (w : List Word) (n : Nat) : (s.loadCopy c w n).mgmt = s.mgmt := rfl
@[simp] theorem State.loadCopy_pins (c : Copy) (w : List Word) (n : Nat) : (s.loadCopy c w n).pins = s.pins := rfl
@[simp] theorem State.loadCopy_mem (c : Copy) (w : List Word) (n : Nat) : (s.loadCopy c w n).mem = s.mem := rfl
@[simp] theorem State.loadCopy_torn (c : Copy) (w : List Word) (n : Nat) : (s.loadCopy c w n).torn = s.torn := rfl
@[simp] theorem State.loadCopy_pending (c : Copy) (w : List Word) (n : Nat) : (s.loadCopy c w n).pending = s.pending := rfl

/-! ## `State.imageReplayed` -/

@[simp] theorem State.imageReplayed_host (n : Nat) : (s.imageReplayed n).host = s.host := rfl
@[simp] theorem State.imageReplayed_txn (n : Nat) : (s.imageReplayed n).txn = s.txn := rfl
@[simp] theorem State.imageReplayed_bank0 (n : Nat) : (s.imageReplayed n).bank0 = s.bank0 := rfl
@[simp] theorem State.imageReplayed_bank1 (n : Nat) : (s.imageReplayed n).bank1 = s.bank1 := rfl
@[simp] theorem State.imageReplayed_log (n : Nat) : (s.imageReplayed n).log = s.log := rfl
@[simp] theorem State.imageReplayed_apply (n : Nat) : (s.imageReplayed n).apply = s.apply := rfl
@[simp] theorem State.imageReplayed_anchor (n : Nat) : (s.imageReplayed n).anchor = s.anchor := rfl
@[simp] theorem State.imageReplayed_port (n : Nat) : (s.imageReplayed n).port = s.port := rfl
@[simp] theorem State.imageReplayed_mgmt (n : Nat) : (s.imageReplayed n).mgmt = s.mgmt := rfl
@[simp] theorem State.imageReplayed_pins (n : Nat) : (s.imageReplayed n).pins = s.pins := rfl
@[simp] theorem State.imageReplayed_mem (n : Nat) : (s.imageReplayed n).mem = s.mem := rfl
@[simp] theorem State.imageReplayed_torn (n : Nat) : (s.imageReplayed n).torn = s.torn := rfl
@[simp] theorem State.imageReplayed_pending (n : Nat) : (s.imageReplayed n).pending = s.pending := rfl

/-! ## `State.endCycle` -/

@[simp] theorem State.endCycle_txn : (s.endCycle).txn = s.txn := rfl
@[simp] theorem State.endCycle_bank0 : (s.endCycle).bank0 = s.bank0 := rfl
@[simp] theorem State.endCycle_bank1 : (s.endCycle).bank1 = s.bank1 := rfl
@[simp] theorem State.endCycle_log : (s.endCycle).log = s.log := rfl
@[simp] theorem State.endCycle_apply : (s.endCycle).apply = s.apply := rfl
@[simp] theorem State.endCycle_anchor : (s.endCycle).anchor = s.anchor := rfl
@[simp] theorem State.endCycle_port : (s.endCycle).port = s.port := rfl
@[simp] theorem State.endCycle_start : (s.endCycle).start = s.start := rfl
@[simp] theorem State.endCycle_mgmt : (s.endCycle).mgmt = s.mgmt := rfl
@[simp] theorem State.endCycle_mem : (s.endCycle).mem = s.mem := rfl
@[simp] theorem State.endCycle_torn : (s.endCycle).torn = s.torn := rfl
@[simp] theorem State.endCycle_pending : (s.endCycle).pending = s.pending := rfl

/-! ## `State.finishRead` -/

@[simp] theorem State.finishRead_txn (f : Word) (n : Lanes) (w : Word) : (s.finishRead f n w).txn = s.txn := rfl
@[simp] theorem State.finishRead_bank0 (f : Word) (n : Lanes) (w : Word) : (s.finishRead f n w).bank0 = s.bank0 := rfl
@[simp] theorem State.finishRead_bank1 (f : Word) (n : Lanes) (w : Word) : (s.finishRead f n w).bank1 = s.bank1 := rfl
@[simp] theorem State.finishRead_log (f : Word) (n : Lanes) (w : Word) : (s.finishRead f n w).log = s.log := rfl
@[simp] theorem State.finishRead_apply (f : Word) (n : Lanes) (w : Word) : (s.finishRead f n w).apply = s.apply := rfl
@[simp] theorem State.finishRead_anchor (f : Word) (n : Lanes) (w : Word) : (s.finishRead f n w).anchor = s.anchor := rfl
@[simp] theorem State.finishRead_port (f : Word) (n : Lanes) (w : Word) : (s.finishRead f n w).port = s.port := rfl
@[simp] theorem State.finishRead_start (f : Word) (n : Lanes) (w : Word) : (s.finishRead f n w).start = s.start := rfl
@[simp] theorem State.finishRead_mgmt (f : Word) (n : Lanes) (w : Word) : (s.finishRead f n w).mgmt = s.mgmt := rfl
@[simp] theorem State.finishRead_pins (f : Word) (n : Lanes) (w : Word) : (s.finishRead f n w).pins = s.pins := rfl
@[simp] theorem State.finishRead_mem (f : Word) (n : Lanes) (w : Word) : (s.finishRead f n w).mem = s.mem := rfl
@[simp] theorem State.finishRead_torn (f : Word) (n : Lanes) (w : Word) : (s.finishRead f n w).torn = s.torn := rfl
@[simp] theorem State.finishRead_pending (f : Word) (n : Lanes) (w : Word) : (s.finishRead f n w).pending = s.pending := rfl

/-! ## `State.riseBegins` -/

@[simp] theorem State.riseBegins_host : (s.riseBegins).host = s.host := rfl
@[simp] theorem State.riseBegins_bank0 : (s.riseBegins).bank0 = s.bank0 := rfl
@[simp] theorem State.riseBegins_bank1 : (s.riseBegins).bank1 = s.bank1 := rfl
@[simp] theorem State.riseBegins_log : (s.riseBegins).log = s.log := rfl
@[simp] theorem State.riseBegins_apply : (s.riseBegins).apply = s.apply := rfl
@[simp] theorem State.riseBegins_anchor : (s.riseBegins).anchor = s.anchor := rfl
@[simp] theorem State.riseBegins_port : (s.riseBegins).port = s.port := rfl
@[simp] theorem State.riseBegins_start : (s.riseBegins).start = s.start := rfl
@[simp] theorem State.riseBegins_mgmt : (s.riseBegins).mgmt = s.mgmt := rfl
@[simp] theorem State.riseBegins_pins : (s.riseBegins).pins = s.pins := rfl
@[simp] theorem State.riseBegins_mem : (s.riseBegins).mem = s.mem := rfl
@[simp] theorem State.riseBegins_torn : (s.riseBegins).torn = s.torn := rfl
@[simp] theorem State.riseBegins_pending : (s.riseBegins).pending = s.pending := rfl

/-! ## `State.conclude` -/

@[simp] theorem State.conclude_host (r : OutcomeRecord) : (s.conclude r).host = s.host := rfl
@[simp] theorem State.conclude_bank0 (r : OutcomeRecord) : (s.conclude r).bank0 = s.bank0 := rfl
@[simp] theorem State.conclude_bank1 (r : OutcomeRecord) : (s.conclude r).bank1 = s.bank1 := rfl
@[simp] theorem State.conclude_log (r : OutcomeRecord) : (s.conclude r).log = s.log := rfl
@[simp] theorem State.conclude_apply (r : OutcomeRecord) : (s.conclude r).apply = s.apply := rfl
@[simp] theorem State.conclude_anchor (r : OutcomeRecord) : (s.conclude r).anchor = s.anchor := rfl
@[simp] theorem State.conclude_port (r : OutcomeRecord) : (s.conclude r).port = s.port := rfl
@[simp] theorem State.conclude_start (r : OutcomeRecord) : (s.conclude r).start = s.start := rfl
@[simp] theorem State.conclude_mgmt (r : OutcomeRecord) : (s.conclude r).mgmt = s.mgmt := rfl
@[simp] theorem State.conclude_pins (r : OutcomeRecord) : (s.conclude r).pins = s.pins := rfl
@[simp] theorem State.conclude_mem (r : OutcomeRecord) : (s.conclude r).mem = s.mem := rfl
@[simp] theorem State.conclude_torn (r : OutcomeRecord) : (s.conclude r).torn = s.torn := rfl
@[simp] theorem State.conclude_pending (r : OutcomeRecord) : (s.conclude r).pending = s.pending := rfl

/-! ## `State.reportFailure` -/

@[simp] theorem State.reportFailure_host (r : Reason) : (s.reportFailure r).host = s.host := rfl
@[simp] theorem State.reportFailure_bank0 (r : Reason) : (s.reportFailure r).bank0 = s.bank0 := rfl
@[simp] theorem State.reportFailure_bank1 (r : Reason) : (s.reportFailure r).bank1 = s.bank1 := rfl
@[simp] theorem State.reportFailure_log (r : Reason) : (s.reportFailure r).log = s.log := rfl
@[simp] theorem State.reportFailure_apply (r : Reason) : (s.reportFailure r).apply = s.apply := rfl
@[simp] theorem State.reportFailure_anchor (r : Reason) : (s.reportFailure r).anchor = s.anchor := rfl
@[simp] theorem State.reportFailure_port (r : Reason) : (s.reportFailure r).port = s.port := rfl
@[simp] theorem State.reportFailure_start (r : Reason) : (s.reportFailure r).start = s.start := rfl
@[simp] theorem State.reportFailure_pins (r : Reason) : (s.reportFailure r).pins = s.pins := rfl
@[simp] theorem State.reportFailure_mem (r : Reason) : (s.reportFailure r).mem = s.mem := rfl
@[simp] theorem State.reportFailure_torn (r : Reason) : (s.reportFailure r).torn = s.torn := rfl
@[simp] theorem State.reportFailure_pending (r : Reason) : (s.reportFailure r).pending = s.pending := rfl

/-! ## `State.failRelease` -/

@[simp] theorem State.failRelease_host (r : Reason) (n k : Nat) : (s.failRelease r n k).host = s.host := rfl
@[simp] theorem State.failRelease_bank0 (r : Reason) (n k : Nat) : (s.failRelease r n k).bank0 = s.bank0 := rfl
@[simp] theorem State.failRelease_bank1 (r : Reason) (n k : Nat) : (s.failRelease r n k).bank1 = s.bank1 := rfl
@[simp] theorem State.failRelease_log (r : Reason) (n k : Nat) : (s.failRelease r n k).log = s.log := rfl
@[simp] theorem State.failRelease_apply (r : Reason) (n k : Nat) : (s.failRelease r n k).apply = s.apply := rfl
@[simp] theorem State.failRelease_anchor (r : Reason) (n k : Nat) : (s.failRelease r n k).anchor = s.anchor := rfl
@[simp] theorem State.failRelease_port (r : Reason) (n k : Nat) : (s.failRelease r n k).port = s.port := rfl
@[simp] theorem State.failRelease_start (r : Reason) (n k : Nat) : (s.failRelease r n k).start = s.start := rfl
@[simp] theorem State.failRelease_pins (r : Reason) (n k : Nat) : (s.failRelease r n k).pins = s.pins := rfl
@[simp] theorem State.failRelease_mem (r : Reason) (n k : Nat) : (s.failRelease r n k).mem = s.mem := rfl
@[simp] theorem State.failRelease_torn (r : Reason) (n k : Nat) : (s.failRelease r n k).torn = s.torn := rfl
@[simp] theorem State.failRelease_pending (r : Reason) (n k : Nat) : (s.failRelease r n k).pending = s.pending := rfl

/-! ## `State.emptyRelease` -/

@[simp] theorem State.emptyRelease_host : (s.emptyRelease).host = s.host := rfl
@[simp] theorem State.emptyRelease_bank0 : (s.emptyRelease).bank0 = s.bank0 := rfl
@[simp] theorem State.emptyRelease_bank1 : (s.emptyRelease).bank1 = s.bank1 := rfl
@[simp] theorem State.emptyRelease_log : (s.emptyRelease).log = s.log := rfl
@[simp] theorem State.emptyRelease_apply : (s.emptyRelease).apply = s.apply := rfl
@[simp] theorem State.emptyRelease_anchor : (s.emptyRelease).anchor = s.anchor := rfl
@[simp] theorem State.emptyRelease_port : (s.emptyRelease).port = s.port := rfl
@[simp] theorem State.emptyRelease_start : (s.emptyRelease).start = s.start := rfl
@[simp] theorem State.emptyRelease_mgmt : (s.emptyRelease).mgmt = s.mgmt := rfl
@[simp] theorem State.emptyRelease_pins : (s.emptyRelease).pins = s.pins := rfl
@[simp] theorem State.emptyRelease_mem : (s.emptyRelease).mem = s.mem := rfl
@[simp] theorem State.emptyRelease_torn : (s.emptyRelease).torn = s.torn := rfl
@[simp] theorem State.emptyRelease_pending : (s.emptyRelease).pending = s.pending := rfl

/-! ## `State.granted` -/

@[simp] theorem State.granted_host (who : Claimant) (x : Access) : (s.granted who x).host = s.host := rfl
@[simp] theorem State.granted_txn (who : Claimant) (x : Access) : (s.granted who x).txn = s.txn := rfl
@[simp] theorem State.granted_bank0 (who : Claimant) (x : Access) : (s.granted who x).bank0 = s.bank0 := rfl
@[simp] theorem State.granted_bank1 (who : Claimant) (x : Access) : (s.granted who x).bank1 = s.bank1 := rfl
@[simp] theorem State.granted_log (who : Claimant) (x : Access) : (s.granted who x).log = s.log := rfl
@[simp] theorem State.granted_apply (who : Claimant) (x : Access) : (s.granted who x).apply = s.apply := rfl
@[simp] theorem State.granted_anchor (who : Claimant) (x : Access) : (s.granted who x).anchor = s.anchor := rfl
@[simp] theorem State.granted_start (who : Claimant) (x : Access) : (s.granted who x).start = s.start := rfl
@[simp] theorem State.granted_mgmt (who : Claimant) (x : Access) : (s.granted who x).mgmt = s.mgmt := rfl
@[simp] theorem State.granted_pins (who : Claimant) (x : Access) : (s.granted who x).pins = s.pins := rfl
@[simp] theorem State.granted_mem (who : Claimant) (x : Access) : (s.granted who x).mem = s.mem := rfl
@[simp] theorem State.granted_torn (who : Claimant) (x : Access) : (s.granted who x).torn = s.torn := rfl
@[simp] theorem State.granted_pending (who : Claimant) (x : Access) : (s.granted who x).pending = s.pending := rfl

/-! ## `State.countWord` -/

@[simp] theorem State.countWord_host (w : AnchorWrite) : (s.countWord w).host = s.host := rfl
@[simp] theorem State.countWord_txn (w : AnchorWrite) : (s.countWord w).txn = s.txn := rfl
@[simp] theorem State.countWord_bank0 (w : AnchorWrite) : (s.countWord w).bank0 = s.bank0 := rfl
@[simp] theorem State.countWord_bank1 (w : AnchorWrite) : (s.countWord w).bank1 = s.bank1 := rfl
@[simp] theorem State.countWord_log (w : AnchorWrite) : (s.countWord w).log = s.log := rfl
@[simp] theorem State.countWord_apply (w : AnchorWrite) : (s.countWord w).apply = s.apply := rfl
@[simp] theorem State.countWord_port (w : AnchorWrite) : (s.countWord w).port = s.port := rfl
@[simp] theorem State.countWord_start (w : AnchorWrite) : (s.countWord w).start = s.start := rfl
@[simp] theorem State.countWord_mgmt (w : AnchorWrite) : (s.countWord w).mgmt = s.mgmt := rfl
@[simp] theorem State.countWord_pins (w : AnchorWrite) : (s.countWord w).pins = s.pins := rfl
@[simp] theorem State.countWord_mem (w : AnchorWrite) : (s.countWord w).mem = s.mem := rfl
@[simp] theorem State.countWord_torn (w : AnchorWrite) : (s.countWord w).torn = s.torn := rfl
@[simp] theorem State.countWord_pending (w : AnchorWrite) : (s.countWord w).pending = s.pending := rfl

/-! ## `State.setConfig` -/

@[simp] theorem State.setConfig_host (c : Configuration) : (s.setConfig c).host = s.host := rfl
@[simp] theorem State.setConfig_txn (c : Configuration) : (s.setConfig c).txn = s.txn := rfl
@[simp] theorem State.setConfig_bank0 (c : Configuration) : (s.setConfig c).bank0 = s.bank0 := rfl
@[simp] theorem State.setConfig_bank1 (c : Configuration) : (s.setConfig c).bank1 = s.bank1 := rfl
@[simp] theorem State.setConfig_log (c : Configuration) : (s.setConfig c).log = s.log := rfl
@[simp] theorem State.setConfig_apply (c : Configuration) : (s.setConfig c).apply = s.apply := rfl
@[simp] theorem State.setConfig_anchor (c : Configuration) : (s.setConfig c).anchor = s.anchor := rfl
@[simp] theorem State.setConfig_port (c : Configuration) : (s.setConfig c).port = s.port := rfl
@[simp] theorem State.setConfig_start (c : Configuration) : (s.setConfig c).start = s.start := rfl
@[simp] theorem State.setConfig_pins (c : Configuration) : (s.setConfig c).pins = s.pins := rfl
@[simp] theorem State.setConfig_mem (c : Configuration) : (s.setConfig c).mem = s.mem := rfl
@[simp] theorem State.setConfig_torn (c : Configuration) : (s.setConfig c).torn = s.torn := rfl
@[simp] theorem State.setConfig_pending (c : Configuration) : (s.setConfig c).pending = s.pending := rfl

/-! ## `State.setEdit` -/

@[simp] theorem State.setEdit_host (g : GuardEntry) : (s.setEdit g).host = s.host := rfl
@[simp] theorem State.setEdit_txn (g : GuardEntry) : (s.setEdit g).txn = s.txn := rfl
@[simp] theorem State.setEdit_bank0 (g : GuardEntry) : (s.setEdit g).bank0 = s.bank0 := rfl
@[simp] theorem State.setEdit_bank1 (g : GuardEntry) : (s.setEdit g).bank1 = s.bank1 := rfl
@[simp] theorem State.setEdit_log (g : GuardEntry) : (s.setEdit g).log = s.log := rfl
@[simp] theorem State.setEdit_apply (g : GuardEntry) : (s.setEdit g).apply = s.apply := rfl
@[simp] theorem State.setEdit_anchor (g : GuardEntry) : (s.setEdit g).anchor = s.anchor := rfl
@[simp] theorem State.setEdit_port (g : GuardEntry) : (s.setEdit g).port = s.port := rfl
@[simp] theorem State.setEdit_start (g : GuardEntry) : (s.setEdit g).start = s.start := rfl
@[simp] theorem State.setEdit_pins (g : GuardEntry) : (s.setEdit g).pins = s.pins := rfl
@[simp] theorem State.setEdit_mem (g : GuardEntry) : (s.setEdit g).mem = s.mem := rfl
@[simp] theorem State.setEdit_torn (g : GuardEntry) : (s.setEdit g).torn = s.torn := rfl
@[simp] theorem State.setEdit_pending (g : GuardEntry) : (s.setEdit g).pending = s.pending := rfl

/-! ## `State.setCommand` -/

@[simp] theorem State.setCommand_host (c : CommandRecord) : (s.setCommand c).host = s.host := rfl
@[simp] theorem State.setCommand_txn (c : CommandRecord) : (s.setCommand c).txn = s.txn := rfl
@[simp] theorem State.setCommand_bank0 (c : CommandRecord) : (s.setCommand c).bank0 = s.bank0 := rfl
@[simp] theorem State.setCommand_bank1 (c : CommandRecord) : (s.setCommand c).bank1 = s.bank1 := rfl
@[simp] theorem State.setCommand_log (c : CommandRecord) : (s.setCommand c).log = s.log := rfl
@[simp] theorem State.setCommand_apply (c : CommandRecord) : (s.setCommand c).apply = s.apply := rfl
@[simp] theorem State.setCommand_anchor (c : CommandRecord) : (s.setCommand c).anchor = s.anchor := rfl
@[simp] theorem State.setCommand_port (c : CommandRecord) : (s.setCommand c).port = s.port := rfl
@[simp] theorem State.setCommand_start (c : CommandRecord) : (s.setCommand c).start = s.start := rfl
@[simp] theorem State.setCommand_pins (c : CommandRecord) : (s.setCommand c).pins = s.pins := rfl
@[simp] theorem State.setCommand_mem (c : CommandRecord) : (s.setCommand c).mem = s.mem := rfl
@[simp] theorem State.setCommand_torn (c : CommandRecord) : (s.setCommand c).torn = s.torn := rfl
@[simp] theorem State.setCommand_pending (c : CommandRecord) : (s.setCommand c).pending = s.pending := rfl

/-! ## `State.setAcks` -/

@[simp] theorem State.setAcks_host (l : List Bool) : (s.setAcks l).host = s.host := rfl
@[simp] theorem State.setAcks_txn (l : List Bool) : (s.setAcks l).txn = s.txn := rfl
@[simp] theorem State.setAcks_bank0 (l : List Bool) : (s.setAcks l).bank0 = s.bank0 := rfl
@[simp] theorem State.setAcks_bank1 (l : List Bool) : (s.setAcks l).bank1 = s.bank1 := rfl
@[simp] theorem State.setAcks_log (l : List Bool) : (s.setAcks l).log = s.log := rfl
@[simp] theorem State.setAcks_apply (l : List Bool) : (s.setAcks l).apply = s.apply := rfl
@[simp] theorem State.setAcks_anchor (l : List Bool) : (s.setAcks l).anchor = s.anchor := rfl
@[simp] theorem State.setAcks_port (l : List Bool) : (s.setAcks l).port = s.port := rfl
@[simp] theorem State.setAcks_start (l : List Bool) : (s.setAcks l).start = s.start := rfl
@[simp] theorem State.setAcks_pins (l : List Bool) : (s.setAcks l).pins = s.pins := rfl
@[simp] theorem State.setAcks_mem (l : List Bool) : (s.setAcks l).mem = s.mem := rfl
@[simp] theorem State.setAcks_torn (l : List Bool) : (s.setAcks l).torn = s.torn := rfl
@[simp] theorem State.setAcks_pending (l : List Bool) : (s.setAcks l).pending = s.pending := rfl

/-! ## `State.setPointer` -/

@[simp] theorem State.setPointer_host (b : Byte) : (s.setPointer b).host = s.host := rfl
@[simp] theorem State.setPointer_txn (b : Byte) : (s.setPointer b).txn = s.txn := rfl
@[simp] theorem State.setPointer_bank0 (b : Byte) : (s.setPointer b).bank0 = s.bank0 := rfl
@[simp] theorem State.setPointer_bank1 (b : Byte) : (s.setPointer b).bank1 = s.bank1 := rfl
@[simp] theorem State.setPointer_log (b : Byte) : (s.setPointer b).log = s.log := rfl
@[simp] theorem State.setPointer_apply (b : Byte) : (s.setPointer b).apply = s.apply := rfl
@[simp] theorem State.setPointer_anchor (b : Byte) : (s.setPointer b).anchor = s.anchor := rfl
@[simp] theorem State.setPointer_port (b : Byte) : (s.setPointer b).port = s.port := rfl
@[simp] theorem State.setPointer_start (b : Byte) : (s.setPointer b).start = s.start := rfl
@[simp] theorem State.setPointer_pins (b : Byte) : (s.setPointer b).pins = s.pins := rfl
@[simp] theorem State.setPointer_mem (b : Byte) : (s.setPointer b).mem = s.mem := rfl
@[simp] theorem State.setPointer_torn (b : Byte) : (s.setPointer b).torn = s.torn := rfl
@[simp] theorem State.setPointer_pending (b : Byte) : (s.setPointer b).pending = s.pending := rfl

/-! ## `State.setTransfer` -/

@[simp] theorem State.setTransfer_host (t : Option Transfer) : (s.setTransfer t).host = s.host := rfl
@[simp] theorem State.setTransfer_txn (t : Option Transfer) : (s.setTransfer t).txn = s.txn := rfl
@[simp] theorem State.setTransfer_bank0 (t : Option Transfer) : (s.setTransfer t).bank0 = s.bank0 := rfl
@[simp] theorem State.setTransfer_bank1 (t : Option Transfer) : (s.setTransfer t).bank1 = s.bank1 := rfl
@[simp] theorem State.setTransfer_log (t : Option Transfer) : (s.setTransfer t).log = s.log := rfl
@[simp] theorem State.setTransfer_apply (t : Option Transfer) : (s.setTransfer t).apply = s.apply := rfl
@[simp] theorem State.setTransfer_anchor (t : Option Transfer) : (s.setTransfer t).anchor = s.anchor := rfl
@[simp] theorem State.setTransfer_port (t : Option Transfer) : (s.setTransfer t).port = s.port := rfl
@[simp] theorem State.setTransfer_start (t : Option Transfer) : (s.setTransfer t).start = s.start := rfl
@[simp] theorem State.setTransfer_pins (t : Option Transfer) : (s.setTransfer t).pins = s.pins := rfl
@[simp] theorem State.setTransfer_mem (t : Option Transfer) : (s.setTransfer t).mem = s.mem := rfl
@[simp] theorem State.setTransfer_torn (t : Option Transfer) : (s.setTransfer t).torn = s.torn := rfl
@[simp] theorem State.setTransfer_pending (t : Option Transfer) : (s.setTransfer t).pending = s.pending := rfl

/-! ## `State.setStatus` -/

@[simp] theorem State.setStatus_host (c : CommandStatus) (b : Byte) (r : Option Reason) : (s.setStatus c b r).host = s.host := rfl
@[simp] theorem State.setStatus_txn (c : CommandStatus) (b : Byte) (r : Option Reason) : (s.setStatus c b r).txn = s.txn := rfl
@[simp] theorem State.setStatus_bank0 (c : CommandStatus) (b : Byte) (r : Option Reason) : (s.setStatus c b r).bank0 = s.bank0 := rfl
@[simp] theorem State.setStatus_bank1 (c : CommandStatus) (b : Byte) (r : Option Reason) : (s.setStatus c b r).bank1 = s.bank1 := rfl
@[simp] theorem State.setStatus_log (c : CommandStatus) (b : Byte) (r : Option Reason) : (s.setStatus c b r).log = s.log := rfl
@[simp] theorem State.setStatus_apply (c : CommandStatus) (b : Byte) (r : Option Reason) : (s.setStatus c b r).apply = s.apply := rfl
@[simp] theorem State.setStatus_anchor (c : CommandStatus) (b : Byte) (r : Option Reason) : (s.setStatus c b r).anchor = s.anchor := rfl
@[simp] theorem State.setStatus_port (c : CommandStatus) (b : Byte) (r : Option Reason) : (s.setStatus c b r).port = s.port := rfl
@[simp] theorem State.setStatus_start (c : CommandStatus) (b : Byte) (r : Option Reason) : (s.setStatus c b r).start = s.start := rfl
@[simp] theorem State.setStatus_pins (c : CommandStatus) (b : Byte) (r : Option Reason) : (s.setStatus c b r).pins = s.pins := rfl
@[simp] theorem State.setStatus_mem (c : CommandStatus) (b : Byte) (r : Option Reason) : (s.setStatus c b r).mem = s.mem := rfl
@[simp] theorem State.setStatus_torn (c : CommandStatus) (b : Byte) (r : Option Reason) : (s.setStatus c b r).torn = s.torn := rfl
@[simp] theorem State.setStatus_pending (c : CommandStatus) (b : Byte) (r : Option Reason) : (s.setStatus c b r).pending = s.pending := rfl

/-! ## `State.commandDone` -/

@[simp] theorem State.commandDone_host (b : Byte) : (s.commandDone b).host = s.host := rfl
@[simp] theorem State.commandDone_txn (b : Byte) : (s.commandDone b).txn = s.txn := rfl
@[simp] theorem State.commandDone_bank0 (b : Byte) : (s.commandDone b).bank0 = s.bank0 := rfl
@[simp] theorem State.commandDone_bank1 (b : Byte) : (s.commandDone b).bank1 = s.bank1 := rfl
@[simp] theorem State.commandDone_log (b : Byte) : (s.commandDone b).log = s.log := rfl
@[simp] theorem State.commandDone_apply (b : Byte) : (s.commandDone b).apply = s.apply := rfl
@[simp] theorem State.commandDone_anchor (b : Byte) : (s.commandDone b).anchor = s.anchor := rfl
@[simp] theorem State.commandDone_port (b : Byte) : (s.commandDone b).port = s.port := rfl
@[simp] theorem State.commandDone_start (b : Byte) : (s.commandDone b).start = s.start := rfl
@[simp] theorem State.commandDone_pins (b : Byte) : (s.commandDone b).pins = s.pins := rfl
@[simp] theorem State.commandDone_mem (b : Byte) : (s.commandDone b).mem = s.mem := rfl
@[simp] theorem State.commandDone_torn (b : Byte) : (s.commandDone b).torn = s.torn := rfl
@[simp] theorem State.commandDone_pending (b : Byte) : (s.commandDone b).pending = s.pending := rfl

/-! ## `State.commandRefused` -/

@[simp] theorem State.commandRefused_host (b : Byte) (r : Reason) : (s.commandRefused b r).host = s.host := rfl
@[simp] theorem State.commandRefused_txn (b : Byte) (r : Reason) : (s.commandRefused b r).txn = s.txn := rfl
@[simp] theorem State.commandRefused_bank0 (b : Byte) (r : Reason) : (s.commandRefused b r).bank0 = s.bank0 := rfl
@[simp] theorem State.commandRefused_bank1 (b : Byte) (r : Reason) : (s.commandRefused b r).bank1 = s.bank1 := rfl
@[simp] theorem State.commandRefused_log (b : Byte) (r : Reason) : (s.commandRefused b r).log = s.log := rfl
@[simp] theorem State.commandRefused_apply (b : Byte) (r : Reason) : (s.commandRefused b r).apply = s.apply := rfl
@[simp] theorem State.commandRefused_anchor (b : Byte) (r : Reason) : (s.commandRefused b r).anchor = s.anchor := rfl
@[simp] theorem State.commandRefused_port (b : Byte) (r : Reason) : (s.commandRefused b r).port = s.port := rfl
@[simp] theorem State.commandRefused_start (b : Byte) (r : Reason) : (s.commandRefused b r).start = s.start := rfl
@[simp] theorem State.commandRefused_pins (b : Byte) (r : Reason) : (s.commandRefused b r).pins = s.pins := rfl
@[simp] theorem State.commandRefused_mem (b : Byte) (r : Reason) : (s.commandRefused b r).mem = s.mem := rfl
@[simp] theorem State.commandRefused_torn (b : Byte) (r : Reason) : (s.commandRefused b r).torn = s.torn := rfl
@[simp] theorem State.commandRefused_pending (b : Byte) (r : Reason) : (s.commandRefused b r).pending = s.pending := rfl

/-! ## `State.disarm` -/

@[simp] theorem State.disarm_host : (s.disarm).host = s.host := rfl
@[simp] theorem State.disarm_txn : (s.disarm).txn = s.txn := rfl
@[simp] theorem State.disarm_bank0 : (s.disarm).bank0 = s.bank0 := rfl
@[simp] theorem State.disarm_bank1 : (s.disarm).bank1 = s.bank1 := rfl
@[simp] theorem State.disarm_log : (s.disarm).log = s.log := rfl
@[simp] theorem State.disarm_apply : (s.disarm).apply = s.apply := rfl
@[simp] theorem State.disarm_anchor : (s.disarm).anchor = s.anchor := rfl
@[simp] theorem State.disarm_port : (s.disarm).port = s.port := rfl
@[simp] theorem State.disarm_start : (s.disarm).start = s.start := rfl
@[simp] theorem State.disarm_pins : (s.disarm).pins = s.pins := rfl
@[simp] theorem State.disarm_mem : (s.disarm).mem = s.mem := rfl
@[simp] theorem State.disarm_torn : (s.disarm).torn = s.torn := rfl
@[simp] theorem State.disarm_pending : (s.disarm).pending = s.pending := rfl

/-! ## `State.chooseEntry` -/

@[simp] theorem State.chooseEntry_host (i : Nat) (e : Entry) : (s.chooseEntry i e).host = s.host := rfl
@[simp] theorem State.chooseEntry_txn (i : Nat) (e : Entry) : (s.chooseEntry i e).txn = s.txn := rfl
@[simp] theorem State.chooseEntry_bank0 (i : Nat) (e : Entry) : (s.chooseEntry i e).bank0 = s.bank0 := rfl
@[simp] theorem State.chooseEntry_bank1 (i : Nat) (e : Entry) : (s.chooseEntry i e).bank1 = s.bank1 := rfl
@[simp] theorem State.chooseEntry_log (i : Nat) (e : Entry) : (s.chooseEntry i e).log = s.log := rfl
@[simp] theorem State.chooseEntry_anchor (i : Nat) (e : Entry) : (s.chooseEntry i e).anchor = s.anchor := rfl
@[simp] theorem State.chooseEntry_start (i : Nat) (e : Entry) : (s.chooseEntry i e).start = s.start := rfl
@[simp] theorem State.chooseEntry_mgmt (i : Nat) (e : Entry) : (s.chooseEntry i e).mgmt = s.mgmt := rfl
@[simp] theorem State.chooseEntry_pins (i : Nat) (e : Entry) : (s.chooseEntry i e).pins = s.pins := rfl
@[simp] theorem State.chooseEntry_mem (i : Nat) (e : Entry) : (s.chooseEntry i e).mem = s.mem := rfl
@[simp] theorem State.chooseEntry_torn (i : Nat) (e : Entry) : (s.chooseEntry i e).torn = s.torn := rfl
@[simp] theorem State.chooseEntry_pending (i : Nat) (e : Entry) : (s.chooseEntry i e).pending = s.pending := rfl

/-! ## `State.formatCleared` -/

@[simp] theorem State.formatCleared_host (j : FormatJob) : (s.formatCleared j).host = s.host := rfl
@[simp] theorem State.formatCleared_txn (j : FormatJob) : (s.formatCleared j).txn = s.txn := rfl
@[simp] theorem State.formatCleared_bank0 (j : FormatJob) : (s.formatCleared j).bank0 = s.bank0 := rfl
@[simp] theorem State.formatCleared_bank1 (j : FormatJob) : (s.formatCleared j).bank1 = s.bank1 := rfl
@[simp] theorem State.formatCleared_log (j : FormatJob) : (s.formatCleared j).log = s.log := rfl
@[simp] theorem State.formatCleared_apply (j : FormatJob) : (s.formatCleared j).apply = s.apply := rfl
@[simp] theorem State.formatCleared_port (j : FormatJob) : (s.formatCleared j).port = s.port := rfl
@[simp] theorem State.formatCleared_start (j : FormatJob) : (s.formatCleared j).start = s.start := rfl
@[simp] theorem State.formatCleared_mgmt (j : FormatJob) : (s.formatCleared j).mgmt = s.mgmt := rfl
@[simp] theorem State.formatCleared_pins (j : FormatJob) : (s.formatCleared j).pins = s.pins := rfl
@[simp] theorem State.formatCleared_mem (j : FormatJob) : (s.formatCleared j).mem = s.mem := rfl
@[simp] theorem State.formatCleared_torn (j : FormatJob) : (s.formatCleared j).torn = s.torn := rfl
@[simp] theorem State.formatCleared_pending (j : FormatJob) : (s.formatCleared j).pending = s.pending := rfl

/-! ## `State.formatAccepted` -/

@[simp] theorem State.formatAccepted_host (r : LogRegion) : (s.formatAccepted r).host = s.host := rfl
@[simp] theorem State.formatAccepted_txn (r : LogRegion) : (s.formatAccepted r).txn = s.txn := rfl
@[simp] theorem State.formatAccepted_bank0 (r : LogRegion) : (s.formatAccepted r).bank0 = s.bank0 := rfl
@[simp] theorem State.formatAccepted_bank1 (r : LogRegion) : (s.formatAccepted r).bank1 = s.bank1 := rfl
@[simp] theorem State.formatAccepted_log (r : LogRegion) : (s.formatAccepted r).log = s.log := rfl
@[simp] theorem State.formatAccepted_apply (r : LogRegion) : (s.formatAccepted r).apply = s.apply := rfl
@[simp] theorem State.formatAccepted_pins (r : LogRegion) : (s.formatAccepted r).pins = s.pins := rfl
@[simp] theorem State.formatAccepted_mem (r : LogRegion) : (s.formatAccepted r).mem = s.mem := rfl
@[simp] theorem State.formatAccepted_torn (r : LogRegion) : (s.formatAccepted r).torn = s.torn := rfl
@[simp] theorem State.formatAccepted_pending (r : LogRegion) : (s.formatAccepted r).pending = s.pending := rfl

end Sys2Proof.Machine
end

