-- ==== Sys2Proof/Laws/Protocol.lean ====
section
/-! SUPPORT. Laws/Protocol.lean: the protocol invariant of Safety.lean, operation by operation: what each shared operation needs
of it and that it keeps it. -/

namespace Sys2Proof.Machine

/-! ## What the invariant reads -/

/-- The parts of the state the protocol invariant speaks of are equal. -/
structure SameProtocol (s t : State) : Prop where
  context : t.txn.context = s.txn.context
  nextSeq : t.txn.nextSeq = s.txn.nextSeq
  bank0   : t.bank0 = s.bank0
  bank1   : t.bank1 = s.bank1
  part    : t.start.part = s.start.part
  job     : t.log.job = s.log.job
  used    : t.log.used = s.log.used
  apply   : t.apply = s.apply
  logSize : t.anchor.image.logSize = s.anchor.image.logSize
  format  : t.anchor.format = s.anchor.format
  slot    : t.host.slot = s.host.slot

theorem SameProtocol.refl (s : State) : SameProtocol s s := ⟨rfl, rfl, rfl, rfl, rfl, rfl, rfl, rfl, rfl, rfl, rfl⟩

theorem SameProtocol.trans {s t u : State} (h : SameProtocol s t) (k : SameProtocol t u) : SameProtocol s u :=
  ⟨k.context.trans h.context, k.nextSeq.trans h.nextSeq, k.bank0.trans h.bank0, k.bank1.trans h.bank1,
    k.part.trans h.part, k.job.trans h.job, k.used.trans h.used, k.apply.trans h.apply, k.logSize.trans h.logSize,
    k.format.trans h.format, k.slot.trans h.slot⟩

theorem bank_congr {s t : State} (h0 : t.bank0 = s.bank0) (h1 : t.bank1 = s.bank1) (b : BankId) : t.bank b = s.bank b := by
  cases b
  · exact h0
  · exact h1

/-- The invariant passes between states that agree on what it reads. -/
theorem SameProtocol.keeps {s t : State} (k : SameProtocol s t) (h : s.protocol) : t.protocol := by
  have hb := bank_congr k.bank0 k.bank1
  unfold State.protocol State.banksSound State.contextSound State.logSound State.applySound State.usedSound
    State.sequencesSound State.partSound State.slotSound at *
  simpa only [hb, k.context, k.nextSeq, k.bank0, k.bank1, k.part, k.job, k.used, k.apply, k.logSize, k.format, k.slot]
    using h

/-! ## One bank and the other -/

theorem Bank.empty_entriesSound : Bank.empty.entriesSound := by simp [Bank.entriesSound, Bank.empty]
theorem Bank.empty_fieldsSound : Bank.empty.fieldsSound := by simp [Bank.fieldsSound, Bank.empty]
@[simp] theorem Bank.empty_state : Bank.empty.state = .free := rfl
@[simp] theorem Bank.empty_reserved : Bank.empty.reserved = 0 := rfl
theorem Bank.reserved_of_capture {k : Bank} (h : k.state = .capture) : k.reserved = 0 := by simp [Bank.reserved, h]

/-- A property of both banks, taken from one of them. -/
theorem forall_bank (b : BankId) {P : BankId → Prop} : (∀ c, P c) ↔ P b ∧ P b.other := by
  constructor
  · exact fun h => ⟨h b, h b.other⟩
  · rintro ⟨h, k⟩ c
    cases b <;> cases c <;> assumption

/-- The protocol invariant seen from one bank `k` and the other `o`. -/
structure ProtocolAt (b : BankId) (k o : Bank) (s : State) : Prop where
  entries  : k.entriesSound
  fields   : k.fieldsSound
  entries' : o.entriesSound
  fields'  : o.fieldsSound
  context  : s.txn.context = .opened b ↔ k.state = .capture
  context' : s.txn.context = .opened b.other ↔ o.state = .capture
  log      : (∃ n, s.log.job = some ⟨b, n⟩) ↔ k.state = .logging
  log'     : (∃ n, s.log.job = some ⟨b.other, n⟩) ↔ o.state = .logging
  apply    : s.apply.bank = some b ↔ k.state = .applying
  apply'   : s.apply.bank = some b.other ↔ o.state = .applying
  flight   : ∀ i, s.apply.inFlight = some i →
    (s.apply.bank = some b ∧ k.unapplied i) ∨ (s.apply.bank = some b.other ∧ o.unapplied i)
  used     : s.log.used = k.reserved + o.reserved
  fits     : s.log.used ≤ s.anchor.image.logSize
  seq      : k.state.committed = true → s.txn.nextSeq = 0 ∨ k.rank < s.txn.nextSeq.toNat
  seq'     : o.state.committed = true → s.txn.nextSeq = 0 ∨ o.rank < s.txn.nextSeq.toNat
  distinct : k.state.committed = true → o.state.committed = true → k.rank ≠ o.rank
  quiet    : s.start.part ≠ .run → s.start.part ≠ .halted → k.state = .free ∧ o.state = .free
  format   : s.anchor.format.isSome = true → s.start.part = .formatting ∨ s.start.part = .halted
  slot     : s.slotSound

theorem ProtocolAt.toProtocol {b : BankId} {s : State} (h : ProtocolAt b (s.bank b) (s.bank b.other) s) : s.protocol := by
  refine ⟨(forall_bank b).2 ⟨⟨h.entries, h.fields⟩, h.entries', h.fields'⟩, (forall_bank b).2 ⟨h.context, h.context'⟩,
    (forall_bank b).2 ⟨h.log, h.log'⟩, ⟨(forall_bank b).2 ⟨h.apply, h.apply'⟩, fun i hi => ?_⟩, ⟨?_, h.fits⟩,
    ⟨(forall_bank b).2 ⟨h.seq, h.seq'⟩, ?_⟩, ⟨fun p q => ?_, h.format⟩, h.slot⟩
  · rcases h.flight i hi with ⟨x, y⟩ | ⟨x, y⟩
    · exact ⟨b, x, y⟩
    · exact ⟨b.other, x, y⟩
  · have := h.used
    cases b
    · exact this
    · simpa [BankId.other, Nat.add_comm] using this
  · have := h.distinct
    cases b
    · exact this
    · exact fun x y e => this y x e.symm
  · have := h.quiet p q
    cases b
    · exact this
    · exact this.symm

theorem State.protocol.at {s : State} (h : s.protocol) (b : BankId) : ProtocolAt b (s.bank b) (s.bank b.other) s := by
  obtain ⟨h1, h2, h3, h4, h5, h6, h7, h8⟩ := h
  refine ⟨(h1 b).1, (h1 b).2, (h1 b.other).1, (h1 b.other).2, h2 b, h2 b.other, h3 b, h3 b.other, h4.1 b, h4.1 b.other,
    fun i hi => ?_, ?_, h5.2, h6.1 b, h6.1 b.other, ?_, ?_, h7.2, h8⟩
  · obtain ⟨c, x, y⟩ := h4.2 i hi
    cases b <;> cases c <;> simp_all [BankId.other]
  · have := h5.1
    cases b
    · exact this
    · simpa [BankId.other, Nat.add_comm] using this
  · have := h6.2
    cases b
    · exact this
    · exact fun x y e => this y x e.symm
  · intro p q
    have := h7.1 p q
    cases b
    · exact this
    · exact this.symm

/-- To show the invariant of a state whose banks are those of `u`. -/
theorem ProtocolAt.to {b : BankId} {k o : Bank} {t : State} (hk : t.bank b = k) (ho : t.bank b.other = o)
    (h : ProtocolAt b k o t) : t.protocol := by
  subst hk
  subst ho
  exact h.toProtocol

theorem BankId.other_ne (b : BankId) : b.other ≠ b := by cases b <;> decide


@[simp] theorem BankId.ne_other (b : BankId) : b ≠ b.other := by cases b <;> decide

/-- A state that differs in nothing the invariant reads but the context outside OPEN and a sound held-write slot. -/
structure SameBanks (s t : State) : Prop where
  context : ∀ b, t.txn.context = .opened b ↔ s.txn.context = .opened b
  nextSeq : t.txn.nextSeq = s.txn.nextSeq
  bank0   : t.bank0 = s.bank0
  bank1   : t.bank1 = s.bank1
  part    : t.start.part = s.start.part
  job     : t.log.job = s.log.job
  used    : t.log.used = s.log.used
  apply   : t.apply = s.apply
  logSize : t.anchor.image.logSize = s.anchor.image.logSize
  format  : t.anchor.format = s.anchor.format

theorem SameBanks.keeps {s t : State} (k : SameBanks s t) (h : s.protocol) (hs : t.slotSound) : t.protocol := by
  have hb := bank_congr k.bank0 k.bank1
  unfold State.protocol State.banksSound State.contextSound State.logSound State.applySound State.usedSound
    State.sequencesSound State.partSound at *
  refine ⟨?_, ?_, ?_, ?_, ?_, ?_, ?_, hs⟩
  all_goals simp only [hb, k.context, k.nextSeq, k.bank0, k.bank1, k.part, k.job, k.used, k.apply, k.logSize, k.format]
  exacts [h.1, h.2.1, h.2.2.1, h.2.2.2.1, h.2.2.2.2.1, h.2.2.2.2.2.1, h.2.2.2.2.2.2.1]

theorem State.protocol.slot {s : State} (h : s.protocol) : s.slotSound := h.2.2.2.2.2.2.2

/-- An emptied slot is sound. -/
theorem slotSound_none {s : State} (h : s.host.slot = none) : s.slotSound := by
  intro x hx
  rw [h] at hx
  cases hx

/-! ## Voiding (R24) -/

theorem State.voidOpen_protocol {s : State} (h : s.protocol) {b : BankId} (hb : s.txn.context = .opened b) (r : VoidReason) :
    ({ s.setBank b .empty with txn := { s.txn with context := .voided r, openTimer := .stopped } } : State).protocol := by
  have H := h.at b
  have hc := H.context.1 hb
  have hr := Bank.reserved_of_capture hc
  refine ProtocolAt.to (b := b) (k := .empty) (o := s.bank b.other) (by cases b <;> rfl) (by cases b <;> rfl) ?_
  exact {
    entries := Bank.empty_entriesSound
    fields := Bank.empty_fieldsSound
    entries' := H.entries'
    fields' := H.fields'
    context := by simp
    context' := by have := H.context'; simp [hb] at this ⊢; exact this
    log := by have := H.log; simpa [hc] using this
    log' := by simpa using H.log'
    apply := by have := H.apply; simpa [hc] using this
    apply' := by simpa using H.apply'
    flight := by
      intro i hi
      rcases H.flight i (by simpa using hi) with ⟨x, y⟩ | ⟨x, y⟩
      · rw [H.apply.1 x] at hc; cases hc
      · exact .inr ⟨by simpa using x, y⟩
    used := by have := H.used; simpa [hr] using this
    fits := by simpa using H.fits
    seq := by simp [BankState.committed]
    seq' := H.seq'
    distinct := by simp [BankState.committed]
    quiet := fun p q => ⟨rfl, (H.quiet (by simpa using p) (by simpa using q)).2⟩
    format := by simpa using H.format
    slot := by have := H.slot; unfold State.slotSound at *; simpa using this }

theorem State.countSilent_same (s : State) : SameProtocol s s.countSilent := ⟨rfl, rfl, rfl, rfl, rfl, rfl, rfl, rfl, rfl, rfl, rfl⟩

theorem State.clearSlot_protocol {s : State} (h : s.protocol) : s.clearSlot.protocol :=
  SameBanks.keeps (s := s) ⟨fun _ => Iff.rfl, rfl, rfl, rfl, rfl, rfl, rfl, rfl, rfl, rfl⟩ h (slotSound_none rfl)

theorem State.refuseWaiting_protocol {s : State} (h : s.protocol) : s.refuseWaiting.protocol := by
  unfold State.refuseWaiting
  split
  · exact (State.countSilent_same _).keeps (State.clearSlot_protocol h)
  · exact h

theorem State.voidTxn_protocol {s : State} (h : s.protocol) (r : VoidReason) : (s.voidTxn r).protocol := by
  unfold State.voidTxn
  split
  · rename_i b hb
    exact State.voidOpen_protocol h hb r
  · rename_i hc
    refine State.refuseWaiting_protocol (SameBanks.keeps ?_ h h.slot)
    exact ⟨fun b => by simp [hc], rfl, rfl, rfl, rfl, rfl, rfl, rfl, rfl, rfl⟩
  · exact h
  · exact h

/-! ## Operations the invariant does not see -/

theorem State.offer_same (s : State) (r : FaultRecord) : SameProtocol s (s.offer r) :=
  ⟨rfl, rfl, rfl, rfl, rfl, rfl, rfl, rfl, rfl, rfl, rfl⟩

theorem State.offerRefused_same (s : State) (c : Reason) (a : Addr) (e : Option (Fin 8)) : SameProtocol s (s.offerRefused c a e) :=
  ⟨rfl, rfl, rfl, rfl, rfl, rfl, rfl, rfl, rfl, rfl, rfl⟩

theorem State.claim_same (s : State) (who : Claimant) (x : Access) : SameProtocol s (s.claim who x) :=
  ⟨rfl, rfl, rfl, rfl, rfl, rfl, rfl, rfl, rfl, rfl, rfl⟩

theorem State.landed_same (s : State) (x : Access) : SameProtocol s (s.landed x) :=
  ⟨rfl, rfl, rfl, rfl, rfl, rfl, rfl, rfl, rfl, rfl, rfl⟩

theorem State.drive_same (s : State) (w : Word) : SameProtocol s (s.drive w) :=
  ⟨rfl, rfl, rfl, rfl, rfl, rfl, rfl, rfl, rfl, rfl, rfl⟩

theorem State.passWrite_same (s : State) (a : Addr) (d : Word) (l : Lanes) : SameProtocol s (s.passWrite a d l) :=
  ⟨rfl, rfl, rfl, rfl, rfl, rfl, rfl, rfl, rfl, rfl, rfl⟩

theorem State.claimRead_same (s : State) (c : HostCycle) (f : Word) (n : Lanes) : SameProtocol s (s.claimRead c f n) :=
  ⟨rfl, rfl, rfl, rfl, rfl, rfl, rfl, rfl, rfl, rfl, rfl⟩

theorem State.startWrite_same (s : State) : SameProtocol s (s.startWrite) :=
  ⟨rfl, rfl, rfl, rfl, rfl, rfl, rfl, rfl, rfl, rfl, rfl⟩

theorem State.statusDone_same (s : State) : SameProtocol s (s.statusDone) :=
  ⟨rfl, rfl, rfl, rfl, rfl, rfl, rfl, rfl, rfl, rfl, rfl⟩

theorem State.writeDone_same (s : State) (w : AnchorWrite) : SameProtocol s (s.writeDone w) :=
  ⟨rfl, rfl, rfl, rfl, rfl, rfl, rfl, rfl, rfl, rfl, rfl⟩

theorem State.discardPartial_same (s : State) : SameProtocol s (s.discardPartial) :=
  ⟨rfl, rfl, rfl, rfl, rfl, rfl, rfl, rfl, rfl, rfl, rfl⟩

theorem State.reportUnformatted_same (s : State) : SameProtocol s (s.reportUnformatted) :=
  ⟨rfl, rfl, rfl, rfl, rfl, rfl, rfl, rfl, rfl, rfl, rfl⟩

theorem State.imageReplayed_same (s : State) (n : Nat) : SameProtocol s (s.imageReplayed n) :=
  ⟨rfl, rfl, rfl, rfl, rfl, rfl, rfl, rfl, rfl, rfl, rfl⟩

theorem State.endCycle_same (s : State) : SameProtocol s (s.endCycle) :=
  ⟨rfl, rfl, rfl, rfl, rfl, rfl, rfl, rfl, rfl, rfl, rfl⟩

theorem State.finishRead_same (s : State) (f : Word) (n : Lanes) (w : Word) : SameProtocol s (s.finishRead f n w) :=
  ⟨rfl, rfl, rfl, rfl, rfl, rfl, rfl, rfl, rfl, rfl, rfl⟩

theorem State.riseBegins_same (s : State) : SameProtocol s (s.riseBegins) :=
  ⟨rfl, rfl, rfl, rfl, rfl, rfl, rfl, rfl, rfl, rfl, rfl⟩

theorem State.reportFailure_same (s : State) (r : Reason) : SameProtocol s (s.reportFailure r) :=
  ⟨rfl, rfl, rfl, rfl, rfl, rfl, rfl, rfl, rfl, rfl, rfl⟩

theorem State.granted_same (s : State) (who : Claimant) (x : Access) : SameProtocol s (s.granted who x) :=
  ⟨rfl, rfl, rfl, rfl, rfl, rfl, rfl, rfl, rfl, rfl, rfl⟩

theorem State.countWord_same (s : State) (w : AnchorWrite) : SameProtocol s (s.countWord w) :=
  ⟨rfl, rfl, rfl, rfl, rfl, rfl, rfl, rfl, rfl, rfl, rfl⟩

theorem State.setConfig_same (s : State) (c : Configuration) : SameProtocol s (s.setConfig c) :=
  ⟨rfl, rfl, rfl, rfl, rfl, rfl, rfl, rfl, rfl, rfl, rfl⟩

theorem State.setEdit_same (s : State) (g : GuardEntry) : SameProtocol s (s.setEdit g) :=
  ⟨rfl, rfl, rfl, rfl, rfl, rfl, rfl, rfl, rfl, rfl, rfl⟩

theorem State.setCommand_same (s : State) (c : CommandRecord) : SameProtocol s (s.setCommand c) :=
  ⟨rfl, rfl, rfl, rfl, rfl, rfl, rfl, rfl, rfl, rfl, rfl⟩

theorem State.setAcks_same (s : State) (l : List Bool) : SameProtocol s (s.setAcks l) :=
  ⟨rfl, rfl, rfl, rfl, rfl, rfl, rfl, rfl, rfl, rfl, rfl⟩

theorem State.setPointer_same (s : State) (b : Byte) : SameProtocol s (s.setPointer b) :=
  ⟨rfl, rfl, rfl, rfl, rfl, rfl, rfl, rfl, rfl, rfl, rfl⟩

theorem State.setTransfer_same (s : State) (t : Option Transfer) : SameProtocol s (s.setTransfer t) :=
  ⟨rfl, rfl, rfl, rfl, rfl, rfl, rfl, rfl, rfl, rfl, rfl⟩

theorem State.setStatus_same (s : State) (c : CommandStatus) (b : Byte) (r : Option Reason) : SameProtocol s (s.setStatus c b r) :=
  ⟨rfl, rfl, rfl, rfl, rfl, rfl, rfl, rfl, rfl, rfl, rfl⟩

theorem State.disarm_same (s : State) : SameProtocol s (s.disarm) :=
  ⟨rfl, rfl, rfl, rfl, rfl, rfl, rfl, rfl, rfl, rfl, rfl⟩

theorem State.requestWrite_same (s : State) : SameProtocol s (s.requestWrite) := by
  unfold State.requestWrite
  split <;> exact ⟨rfl, rfl, rfl, rfl, rfl, rfl, rfl, rfl, rfl, rfl, rfl⟩

theorem State.advance_same (s : State) (n : Nat) : SameProtocol s (s.advance n) := by
  unfold State.advance
  split <;> exact ⟨rfl, rfl, rfl, rfl, rfl, rfl, rfl, rfl, rfl, rfl, rfl⟩

end Sys2Proof.Machine
end

