-- ==== Sys2Proof/Laws/ProtocolHost.lean ====
section
/-! SUPPORT. Laws/ProtocolHost.lean: the host port's and the transaction controller's operations keep the protocol invariant. -/

namespace Sys2Proof.Machine

/-! ## One bank replaced, its state kept -/

/-- A bank whose entries or promotion target change in place, its state, number and image place kept. -/
theorem State.setBank_protocol {s : State} (h : s.protocol) {b : BankId} {k : Bank}
    (he : k.entriesSound) (hf : k.fieldsSound) (hst : k.state = (s.bank b).state) (hq : k.seq = (s.bank b).seq)
    (hi : k.image = (s.bank b).image) (hu : ∀ i, (s.bank b).state = .applying → (s.bank b).unapplied i → k.unapplied i) :
    (s.setBank b k).protocol := by
  have H := h.at b
  have hr : k.rank = (s.bank b).rank := by simp only [Bank.rank, hq]
  have hv : k.reserved = (s.bank b).reserved := by simp only [Bank.reserved, hst, hi]
  refine ProtocolAt.to (b := b) (k := k) (o := s.bank b.other) (by simp) (by simp) ?_
  exact {
    entries := he
    fields := hf
    entries' := H.entries'
    fields' := H.fields'
    context := by rw [hst]; simpa using H.context
    context' := by simpa using H.context'
    log := by rw [hst]; simpa using H.log
    log' := by simpa using H.log'
    apply := by rw [hst]; simpa using H.apply
    apply' := by simpa using H.apply'
    flight := by
      intro i hi
      rcases H.flight i (by simpa using hi) with ⟨x, y⟩ | ⟨x, y⟩
      · exact .inl ⟨by simpa using x, hu i (H.apply.1 x) y⟩
      · exact .inr ⟨by simpa using x, y⟩
    used := by rw [hv]; simpa using H.used
    fits := by simpa using H.fits
    seq := by rw [hst, hr]; simpa using H.seq
    seq' := by simpa using H.seq'
    distinct := by rw [hst, hr]; exact H.distinct
    quiet := fun p q => by rw [hst]; exact H.quiet (by simpa using p) (by simpa using q)
    format := by simpa using H.format
    slot := by have := H.slot; unfold State.slotSound at *; simpa using this }

/-! ## Captures (R47 to R49) -/

theorem State.capture_protocol {s : State} (h : s.protocol) {b : BankId} (hb : s.txn.context = .opened b) (a : Addr)
    (d : Word) {l : Lanes} (hl : noLane l = false) : (s.capture b a d l).protocol := by
  have H := h.at b
  have hc := H.context.1 hb
  unfold State.capture
  split
  · rename_i es hes
    obtain ⟨h1, h2⟩ := captureEntries_sound H.entries hl hes
    refine State.setBank_protocol h h1 ?_ rfl rfl rfl (fun i hi => by rw [hc] at hi; cases hi)
    have hf := H.fields
    simp only [Bank.fieldsSound, hc] at hf ⊢
    exact ⟨hf.1, h2.trans hf.2.1, hf.2.2.1, hf.2.2.2⟩
  · exact (State.countSilent_same _).keeps (State.voidTxn_protocol h .overflow)

/-! ## Promotion (R73) -/

theorem Bank.unappliedAt_spec {k : Bank} {a : Addr} {i : Nat} (h : k.unappliedAt a = some i) : k.unapplied i := by
  unfold Bank.unappliedAt at h
  rw [List.findIdx?_eq_some_iff_getElem] at h
  obtain ⟨hi, hp, _⟩ := h
  exact ⟨k.entries[i], by simp [hi], by simp at hp; exact hp.2⟩

theorem State.promoteIn_protocol {s : State} (h : s.protocol) (b : BankId) (a : Addr) : (s.promoteIn b a).protocol := by
  have H := h.at b
  unfold State.promoteIn
  split
  · rename_i hst
    split
    · rename_i i hi
      refine State.setBank_protocol h H.entries ?_ rfl rfl rfl (fun j _ hj => hj)
      have hf := H.fields
      simp only [Bank.fieldsSound, hst] at hf ⊢
      refine ⟨hf.1, hf.2.1, hf.2.2.1, ?_⟩
      intro j hj
      simp only [Option.some.injEq] at hj
      subst hj
      exact Bank.unappliedAt_spec hi
    · exact h
  · exact h

/-! ## Holding and refusing -/

theorem State.holdWrite_protocol {s : State} (h : s.protocol) {x : HeldWrite} (hx : noLane x.lanes = false) :
    (s.holdWrite x).protocol := by
  refine SameBanks.keeps (s := s) ⟨fun _ => Iff.rfl, rfl, rfl, rfl, rfl, rfl, rfl, rfl, rfl, rfl⟩ h ?_
  intro y hy
  simp only [State.holdWrite, Option.some.injEq] at hy
  exact hy ▸ hx

theorem State.startPulse_protocol {s : State} (h : s.protocol) : s.startPulse.protocol := by
  have ht : ({ s with host := { s.host with pulse := some Config.pulseMicros } } : State).protocol :=
    SameProtocol.keeps (s := s) ⟨rfl, rfl, rfl, rfl, rfl, rfl, rfl, rfl, rfl, rfl, rfl⟩ h
  exact State.voidTxn_protocol ht .hostReset

theorem State.refusalAction_protocol {s : State} (h : s.protocol) (x : RefusalAction) : (s.refusalAction x).protocol := by
  cases x
  · exact h
  · exact State.startPulse_protocol h

theorem State.refuse_protocol {s : State} (h : s.protocol) (c : Reason) (a : Addr) (k : Classified) :
    (s.refuse c a k).protocol := State.refusalAction_protocol ((State.offerRefused_same s c a k.entry).keeps h) _

theorem State.refuseLocked_protocol {s : State} (h : s.protocol) (a : Addr) (k : Classified) :
    (s.refuseLocked a k).protocol :=
  State.refusalAction_protocol (State.voidTxn_protocol ((State.offerRefused_same s _ a k.entry).keeps h) _) _

/-! ## Taking a cycle (R1 to R18) -/

theorem State.passOrHold_protocol {s : State} (h : s.protocol) {c : HostCycle} (hl : noLane c.lanes = false)
    (k : Classified) : (s.passOrHold c k).protocol := by
  unfold State.passOrHold
  split
  · exact State.promoteIn_protocol (State.promoteIn_protocol (State.holdWrite_protocol h hl) _ _) _ _
  · exact (State.passWrite_same s _ _ _).keeps h

theorem State.routePlain_protocol {s : State} (h : s.protocol) {c : HostCycle} (hl : noLane c.lanes = false)
    (k : Classified) : (s.routePlain c k).protocol := by
  unfold State.routePlain
  split
  · exact State.passOrHold_protocol h hl k
  · rename_i b hb; exact State.capture_protocol h hb _ _ hl
  · exact State.holdWrite_protocol h hl
  · exact (State.countSilent_same s).keeps h

theorem State.routeJournaled_protocol {s : State} (h : s.protocol) {c : HostCycle} (hl : noLane c.lanes = false)
    (k : Classified) : (s.routeJournaled c k).protocol := by
  unfold State.routeJournaled
  split
  · exact State.refuse_protocol h _ _ _
  · rename_i b hb; exact State.capture_protocol h hb _ _ hl
  · exact State.holdWrite_protocol h hl
  · exact (State.countSilent_same s).keeps h

theorem State.routeWrite_protocol {s : State} (h : s.protocol) {c : HostCycle} (hl : noLane c.lanes = false)
    (k : Classified) : (s.routeWrite c k).protocol := by
  unfold State.routeWrite
  split
  · exact State.refuse_protocol h _ _ _
  · exact State.refuse_protocol h _ _ _
  · exact State.refuse_protocol h _ _ _
  · exact State.refuseLocked_protocol h _ _
  · exact State.routeJournaled_protocol h hl k
  · exact State.routePlain_protocol h hl k

theorem State.takeWrite_protocol {s : State} (h : s.protocol) {c : HostCycle} (hl : noLane c.lanes = false) :
    (s.takeWrite c).protocol := by
  unfold State.takeWrite
  split
  · exact (State.countSilent_same s).keeps h
  · exact State.routeWrite_protocol h hl _
  · exact State.routeWrite_protocol h hl _
  · exact State.routeWrite_protocol h hl _

/-- A read changes nothing the invariant reads. -/
theorem State.takeRead_same (s : State) (c : HostCycle) : SameProtocol s (s.takeRead c) := by
  unfold State.takeRead State.forward
  dsimp only
  repeat' split
  · exact (State.drive_same s _).trans (State.offerRefused_same _ _ _ _)
  · exact State.claimRead_same s _ _ _
  · exact State.drive_same s _
  · exact State.claimRead_same s _ _ _

theorem State.takeLaneless_same (s : State) (c : HostCycle) : SameProtocol s (s.takeLaneless c) := by
  unfold State.takeLaneless
  split
  · exact SameProtocol.refl s
  · exact State.drive_same s 0

theorem State.takeCycle_protocol {s : State} (h : s.protocol) : s.takeCycle.protocol := by
  unfold State.takeCycle
  split
  · exact h
  · rename_i c _
    have ht : ({ s with host := { s.host with cycleTaken := true } } : State).protocol :=
      SameProtocol.keeps (s := s) ⟨rfl, rfl, rfl, rfl, rfl, rfl, rfl, rfl, rfl, rfl, rfl⟩ h
    dsimp only
    split
    · exact (State.takeLaneless_same _ c).keeps ht
    · rename_i hl
      split
      · exact State.takeWrite_protocol ht (by simpa using hl)
      · exact (State.takeRead_same _ c).keeps ht

theorem State.takeWaiting_protocol {s : State} (h : s.protocol) : s.takeWaiting.protocol := by
  unfold State.takeWaiting
  split
  · exact State.takeCycle_protocol h
  · exact h

theorem State.presentCycle_protocol {s : State} (h : s.protocol) (x : HostLines) : (s.presentCycle x).protocol := by
  unfold State.presentCycle
  have ht : ({ s with pins := { s.pins with host := x }, host := { s.host with cycleTaken := false, driven := none } } :
      State).protocol := SameProtocol.keeps (s := s) ⟨rfl, rfl, rfl, rfl, rfl, rfl, rfl, rfl, rfl, rfl, rfl⟩ h
  dsimp only
  split
  · exact ht
  · exact State.takeCycle_protocol ht

/-! ## Opening on a bank (R22, R23, R53) -/

theorem State.freeBank_spec {s : State} {b : BankId} (h : s.freeBank = some b) : (s.bank b).state = .free := by
  unfold State.freeBank at h
  split at h
  · rename_i h0; cases h; exact h0
  · split at h
    · rename_i h1; cases h; exact h1
    · cases h

theorem Bank.capturing_sound : Bank.capturing.entriesSound ∧ Bank.capturing.fieldsSound := by
  simp [Bank.entriesSound, Bank.fieldsSound, Bank.capturing, Bank.appliedCount]

theorem State.openOn_protocol {s : State} (h : s.protocol) {b : BankId} (hb : (s.bank b).state = .free)
    (hc : ∀ c, s.txn.context ≠ .opened c) (hp : s.start.part = .run) : (s.openOn b).protocol := by
  have H := h.at b
  have hf := H.fields
  simp only [Bank.fieldsSound, hb] at hf
  have hr : (s.bank b).reserved = 0 := by simp only [Bank.reserved, hb]
  refine ProtocolAt.to (b := b) (k := .capturing) (o := s.bank b.other) (by cases b <;> rfl) (by cases b <;> rfl) ?_
  exact {
    entries := Bank.capturing_sound.1
    fields := Bank.capturing_sound.2
    entries' := H.entries'
    fields' := H.fields'
    context := by simp [State.openOn, Bank.capturing]
    context' := by
      have := H.context'
      constructor
      · intro e; simp [State.openOn] at e
      · intro e; exact absurd (this.2 e) (hc _)
    log := by have := H.log; simpa [State.openOn, Bank.capturing, hb] using this
    log' := by simpa [State.openOn] using H.log'
    apply := by have := H.apply; simpa [State.openOn, Bank.capturing, hb] using this
    apply' := by simpa [State.openOn] using H.apply'
    flight := by
      intro i hi
      rcases H.flight i (by simpa [State.openOn] using hi) with ⟨x, y⟩ | ⟨x, y⟩
      · have := H.apply.1 x; rw [hb] at this; cases this
      · exact .inr ⟨by simpa [State.openOn] using x, y⟩
    used := by have := H.used; rw [hr] at this; simpa [State.openOn, Bank.reserved, Bank.capturing] using this
    fits := by simpa [State.openOn] using H.fits
    seq := by simp [Bank.capturing, BankState.committed]
    seq' := by simpa [State.openOn] using H.seq'
    distinct := by simp [Bank.capturing, BankState.committed]
    quiet := fun p _ => by simp [State.openOn, hp] at p
    format := by simpa [State.openOn] using H.format
    slot := by have := H.slot; unfold State.slotSound at *; simpa [State.openOn] using this }

theorem State.slotAwaiting_spec {s : State} {w : Awaits} {x : HeldWrite} (h : s.slotAwaiting w = some x) :
    s.host.slot = some x ∧ x.awaits = w := by
  unfold State.slotAwaiting at h
  split at h
  · rename_i y hy
    split at h
    · rename_i hw; cases h; exact ⟨hy, hw⟩
    · cases h
  · cases h

theorem State.captureHeld_protocol {s : State} (h : s.protocol) {b : BankId} (hb : s.txn.context = .opened b) :
    (s.captureHeld b).protocol := by
  unfold State.captureHeld
  split
  · rename_i x hx
    exact State.capture_protocol (State.clearSlot_protocol h) hb _ _ (h.slot x (State.slotAwaiting_spec hx).1)
  · exact h

theorem State.openWaiting_protocol {s : State} (h : s.protocol) : s.openWaiting.protocol := by
  unfold State.openWaiting
  split
  · rename_i hc
    split
    · rename_i b hb
      refine State.captureHeld_protocol (State.openOn_protocol h (State.freeBank_spec hb) ?_ hc.1) rfl
      intro c; rw [hc.2]; simp
    · exact h
  · exact h

theorem State.examineHold_protocol {s : State} (h : s.protocol) : s.examineHold.protocol := by
  unfold State.examineHold
  split
  · rename_i x hx
    split
    · exact h
    · refine (State.claim_same _ _ _).keeps
        (SameBanks.keeps (s := s) ⟨fun _ => Iff.rfl, rfl, rfl, rfl, rfl, rfl, rfl, rfl, rfl, rfl⟩ h ?_)
      intro y hy
      simp only [Option.some.injEq] at hy
      subst hy
      exact h.slot x (State.slotAwaiting_spec hx).1
  · exact h

/-! ## The lines TXN and ABT -/

theorem State.riseContext_protocol {s : State} (h : s.protocol) (hc : s.txn.context = .idle) : s.riseContext.protocol := by
  have hi : ∀ c, s.txn.context ≠ .opened c := fun c => by rw [hc]; simp
  unfold State.riseContext
  split
  · rename_i hp
    split
    · rename_i b hb
      exact State.openOn_protocol h (State.freeBank_spec hb) hi hp
    · exact SameBanks.keeps (s := s) ⟨fun b => by simp [hc], rfl, rfl, rfl, rfl, rfl, rfl, rfl, rfl, rfl⟩ h h.slot
  · exact SameBanks.keeps (s := s) ⟨fun b => by simp [hc], rfl, rfl, rfl, rfl, rfl, rfl, rfl, rfl, rfl⟩ h h.slot
  · exact SameBanks.keeps (s := s) ⟨fun b => by simp [hc], rfl, rfl, rfl, rfl, rfl, rfl, rfl, rfl, rfl⟩ h h.slot
  · exact h
  · exact h
  · exact h

theorem State.rise_protocol {s : State} (h : s.protocol) : s.rise.protocol := by
  have ht : ({ s with pins := { s.pins with txnHigh := true } } : State).protocol :=
    SameProtocol.keeps (s := s) ⟨rfl, rfl, rfl, rfl, rfl, rfl, rfl, rfl, rfl, rfl, rfl⟩ h
  unfold State.rise
  dsimp only
  split
  · rename_i hc
    have hr := State.riseContext_protocol ((State.riseBegins_same _).keeps ht) hc.2
    unfold State.pulseNotice
    split
    · exact State.voidTxn_protocol hr _
    · exact hr
  · exact ht

/-- A context that leaves SLOT_WAIT or VOID for IDLE. -/
theorem State.conclude_protocol {s : State} (h : s.protocol) (hc : ∀ b, s.txn.context ≠ .opened b) (r : OutcomeRecord) :
    (s.conclude r).protocol :=
  SameBanks.keeps (s := s) ⟨fun b => by simp [State.conclude, hc b], rfl, rfl, rfl, rfl, rfl, rfl, rfl, rfl, rfl⟩ h h.slot

theorem State.failRelease_protocol {s : State} (h : s.protocol) (hc : ∀ b, s.txn.context ≠ .opened b) (r : Reason)
    (n k : Nat) : (s.failRelease r n k).protocol :=
  (State.reportFailure_same _ _).keeps (State.conclude_protocol h hc _)

/-- R56: a release that empties the bank in use. -/
theorem State.releaseEmptied_protocol {s : State} (h : s.protocol) {b : BankId} (hb : s.txn.context = .opened b)
    (r : OutcomeRecord) : ((s.setBank b .empty).conclude r).protocol := by
  have hv := State.voidOpen_protocol h hb .aborted
  refine SameBanks.keeps (s := ({ s.setBank b .empty with
    txn := { s.txn with context := .voided .aborted, openTimer := .stopped } } : State)) ?_ hv ?_
  · exact ⟨fun c => by simp [State.conclude], by cases b <;> rfl, rfl, rfl, rfl, rfl, rfl, rfl, rfl, rfl⟩
  · have := h.slot; unfold State.slotSound at *; simpa using this

theorem State.accept_protocol {s : State} (h : s.protocol) {b : BankId} (hb : s.txn.context = .opened b)
    (hn : (s.bank b).entries.length ≠ 0) (hq : s.txn.nextSeq ≠ 0) : (s.accept b).protocol := by
  have H := h.at b
  have hc := H.context.1 hb
  have hf := H.fields
  simp only [Bank.fieldsSound, hc] at hf
  have hne : (s.bank b).entries ≠ [] := fun e => hn (by rw [e]; rfl)
  have hr := Bank.reserved_of_capture hc
  have hnext : ∀ r : Nat, r ≤ s.txn.nextSeq.toNat → s.txn.nextSeq + 1 = 0 ∨ r < (s.txn.nextSeq + 1).toNat := by
    intro r hr
    by_cases h0 : s.txn.nextSeq + 1 = 0
    · exact .inl h0
    · right
      have : (s.txn.nextSeq + 1).toNat = s.txn.nextSeq.toNat + 1 := by
        have h1 : (s.txn.nextSeq + 1).toNat = (s.txn.nextSeq.toNat + 1) % 2 ^ 32 := by
          rw [BitVec.toNat_add]
          rfl
        have hlt := s.txn.nextSeq.isLt
        have : s.txn.nextSeq.toNat + 1 ≠ 2 ^ 32 := by
          intro e
          apply h0
          apply BitVec.eq_of_toNat_eq
          rw [h1, e]
          rfl
        omega
      omega
  refine ProtocolAt.to (b := b) (k := { s.bank b with state := .logWait, seq := some s.txn.nextSeq })
    (o := s.bank b.other) (by cases b <;> rfl) (by cases b <;> rfl) ?_
  exact {
    entries := H.entries
    fields := ⟨⟨_, rfl, hq⟩, hne, hf.2.1, hf.2.2.1, hf.2.2.2⟩
    entries' := H.entries'
    fields' := H.fields'
    context := by simp [State.accept, State.conclude]
    context' := by
      have := H.context'
      simp [State.accept, State.conclude, hb] at this ⊢
      exact this
    log := by have := H.log; simpa [State.accept, State.conclude, hc] using this
    log' := by simpa [State.accept, State.conclude] using H.log'
    apply := by have := H.apply; simpa [State.accept, State.conclude, hc] using this
    apply' := by simpa [State.accept, State.conclude] using H.apply'
    flight := by
      intro i hi
      rcases H.flight i (by simpa [State.accept, State.conclude] using hi) with ⟨x, y⟩ | ⟨x, y⟩
      · have := H.apply.1 x; rw [hc] at this; cases this
      · exact .inr ⟨by simpa [State.accept, State.conclude] using x, y⟩
    used := by have := H.used; rw [hr] at this; simpa [State.accept, State.conclude, Bank.reserved] using this
    fits := by simpa [State.accept, State.conclude] using H.fits
    seq := fun _ => by
      have := hnext s.txn.nextSeq.toNat (Nat.le_refl _)
      simpa [State.accept, State.conclude, Bank.rank] using this
    seq' := fun ho => by
      rcases H.seq' ho with h0 | hlt
      · exact absurd h0 hq
      · have := hnext (s.bank b.other).rank (Nat.le_of_lt hlt)
        simpa [State.accept, State.conclude] using this
    distinct := fun _ ho => by
      rcases H.seq' ho with h0 | hlt
      · exact absurd h0 hq
      · show s.txn.nextSeq.toNat ≠ (s.bank b.other).rank
        exact Nat.ne_of_gt hlt
    quiet := fun p q => by
      have := (H.quiet (by simpa [State.accept, State.conclude] using p) (by simpa [State.accept, State.conclude] using q)).1
      rw [hc] at this
      cases this
    format := by simpa [State.accept, State.conclude] using H.format
    slot := by have := H.slot; unfold State.slotSound at *; simpa [State.accept, State.conclude] using this }

theorem State.releaseOpen_protocol {s : State} (h : s.protocol) {b : BankId} (hb : s.txn.context = .opened b) :
    (s.releaseOpen b).protocol := by
  unfold State.releaseOpen
  dsimp only
  split
  · exact State.releaseEmptied_protocol h hb _
  · split
    · exact (State.reportFailure_same _ _).keeps (State.releaseEmptied_protocol h hb _)
    · split
      · exact (State.reportFailure_same _ _).keeps (State.releaseEmptied_protocol h hb _)
      · rename_i hn _ hq
        exact State.accept_protocol h hb hn hq

theorem State.releaseWaiting_protocol {s : State} (h : s.protocol) (hc : s.txn.context = .slotWait) :
    s.releaseWaiting.protocol := by
  have hi : ∀ c, s.txn.context ≠ .opened c := fun c => by rw [hc]; simp
  unfold State.releaseWaiting
  split
  · exact State.failRelease_protocol ((State.offerRefused_same _ _ _ _).keeps (State.clearSlot_protocol h)) hi _ _ _
  · exact State.conclude_protocol h hi _

theorem State.fall_protocol {s : State} (h : s.protocol) : s.fall.protocol := by
  have ht : ({ s with pins := { s.pins with txnHigh := false } } : State).protocol :=
    SameProtocol.keeps (s := s) ⟨rfl, rfl, rfl, rfl, rfl, rfl, rfl, rfl, rfl, rfl, rfl⟩ h
  unfold State.fall
  dsimp only
  split
  · unfold State.releaseTaken
    split
    · rename_i b hb; exact State.releaseOpen_protocol ht hb
    · rename_i hc; exact State.releaseWaiting_protocol ht hc
    · rename_i r hc
      exact State.failRelease_protocol ht (fun c e => by rw [hc] at e; cases e) _ _ _
    · exact ht
  · exact ht

theorem State.abort_protocol {s : State} (h : s.protocol) : s.abort.protocol := by
  unfold State.abort
  split
  · exact State.voidTxn_protocol h _
  · exact h

/-! ## Timers (R15, R28, R30, R76) -/

theorem State.expireHold_protocol {s : State} (h : s.protocol) : s.expireHold.protocol := by
  unfold State.expireHold
  split
  · have ht := fun x : HeldWrite => (State.offerRefused_same _ .holdExpired x.addr x.entry).keeps (State.clearSlot_protocol h)
    dsimp only
    split
    · exact ht _
    · exact State.voidTxn_protocol (ht _) _
    · exact h
  · exact h

theorem State.holdExpiry_protocol {s : State} (h : s.protocol) : s.holdExpiry.protocol := by
  unfold State.holdExpiry
  split
  · exact State.expireHold_protocol ((State.advance_same s _).keeps h)
  · exact h

theorem State.openExpiry_protocol {s : State} (h : s.protocol) : s.openExpiry.protocol := by
  unfold State.openExpiry
  split
  · exact State.voidTxn_protocol ((State.advance_same s _).keeps h) _
  · exact h

theorem State.pulseEnd_same (s : State) : SameProtocol s s.pulseEnd := by
  unfold State.pulseEnd
  split
  · split
    · exact SameProtocol.refl s
    · exact (State.advance_same s _).trans ⟨rfl, rfl, rfl, rfl, rfl, rfl, rfl, rfl, rfl, rfl, rfl⟩
  · exact SameProtocol.refl s

theorem State.tick_protocol {s : State} (h : s.protocol) : s.tick.protocol := by
  have h1 : (s.advance 1).pulseDue.protocol := by
    have := (State.advance_same s 1).keeps h
    unfold State.pulseDue
    split
    · exact (State.pulseEnd_same _).keeps this
    · exact this
  have h2 : (s.advance 1).pulseDue.holdDue.protocol := by
    unfold State.holdDue
    split
    · exact State.holdExpiry_protocol h1
    · exact h1
  unfold State.tick State.openDue
  split
  · exact State.openExpiry_protocol h2
  · exact h2

/-! ## Completion of a host access (R9, R68, R71) -/

theorem State.hostCompletion_protocol {s : State} (h : s.protocol) : s.hostCompletion.protocol := by
  unfold State.hostCompletion
  split
  · rename_i x _
    have ht := (State.landed_same s x).keeps h
    unfold State.finishHostAccess
    split
    · exact SameProtocol.keeps (s := s.landed x) ⟨rfl, rfl, rfl, rfl, rfl, rfl, rfl, rfl, rfl, rfl, rfl⟩ ht
    · exact (State.finishRead_same _ _ _ _).keeps ht
    · split
      · exact State.clearSlot_protocol ht
      · exact ht
  · exact h

end Sys2Proof.Machine
end

