-- ==== Sys2Proof/Laws/ProtocolEngines.lean ====
section
/-! SUPPORT. Laws/ProtocolEngines.lean: the log writer, the apply engine, the anchor writer, the start-up controller and the
management port keep the protocol invariant. -/

namespace Sys2Proof.Machine

/-! ## The oldest bank in a state (R90, R101) -/

theorem State.oldestIn_spec {s : State} {st : BankState} {b : BankId} (h : s.oldestIn st = some b) :
    (s.bank b).state = st := by
  unfold State.oldestIn at h
  split at h
  · rename_i h0
    split at h
    · rename_i h1; cases h; exact h1.1
    · cases h; exact h0
  · split at h
    · rename_i h1; cases h; exact h1
    · cases h

/-! ## The log writer (R91, R92, R94) -/

theorem State.takeForLog_protocol {s : State} (h : s.protocol) {b : BankId} (hb : (s.bank b).state = .logWait)
    (hj : s.log.job = none) (hfit : imageSize (s.bank b).entries.length ≤ s.freeSpace) : (s.takeForLog b).protocol := by
  have H := h.at b
  have hf := H.fields
  simp only [Bank.fieldsSound, hb] at hf
  have hr : (s.bank b).reserved = 0 := by simp only [Bank.reserved, hb]
  have hz : 8 ≤ imageSize (s.bank b).entries.length := by simp only [imageSize]; omega
  have hu := H.used
  have hfits := H.fits
  rw [hr, Nat.zero_add] at hu
  unfold State.freeSpace at hfit
  refine ProtocolAt.to (b := b)
    (k := { s.bank b with state := .logging, image := some ⟨s.log.head, imageSize (s.bank b).entries.length⟩ })
    (o := s.bank b.other) (by cases b <;> rfl) (by cases b <;> rfl) ?_
  exact {
    entries := H.entries
    fields := ⟨hf.1, hf.2.1, hf.2.2.1, ⟨_, rfl, rfl⟩, hf.2.2.2.2⟩
    entries' := H.entries'
    fields' := H.fields'
    context := by have := H.context; simpa [State.takeForLog, hb] using this
    context' := by simpa [State.takeForLog] using H.context'
    log := by simp [State.takeForLog]
    log' := by
      have := H.log'
      simp [hj] at this
      simp [State.takeForLog, this]
    apply := by have := H.apply; simpa [State.takeForLog, hb] using this
    apply' := by simpa [State.takeForLog] using H.apply'
    flight := by
      intro i hi
      rcases H.flight i (by simpa [State.takeForLog] using hi) with ⟨x, y⟩ | ⟨x, y⟩
      · have := H.apply.1 x; rw [hb] at this; cases this
      · exact .inr ⟨by simpa [State.takeForLog] using x, y⟩
    used := by
      show s.log.used + imageSize (s.bank b).entries.length = imageSize (s.bank b).entries.length + (s.bank b.other).reserved
      omega
    fits := by
      have : s.log.used + imageSize (s.bank b).entries.length ≤ s.anchor.image.logSize := by omega
      simpa [State.takeForLog] using this
    seq := fun _ => by
      have := H.seq (by simp [hb, BankState.committed])
      simpa [State.takeForLog, Bank.rank] using this
    seq' := by simpa [State.takeForLog] using H.seq'
    distinct := fun _ ho => by
      have := H.distinct (by simp [hb, BankState.committed]) ho
      exact this
    quiet := fun p q => by
      have := (H.quiet (by simpa [State.takeForLog] using p) (by simpa [State.takeForLog] using q)).1
      rw [hb] at this
      cases this
    format := by simpa [State.takeForLog] using H.format
    slot := by have := H.slot; unfold State.slotSound at *; simpa [State.takeForLog] using this }

theorem State.logTake_protocol {s : State} (h : s.protocol) : s.logTake.protocol := by
  unfold State.logTake
  split
  · rename_i hc
    split
    · rename_i b hb
      split
      · rename_i hfit; exact State.takeForLog_protocol h (State.oldestIn_spec hb) hc.2 hfit
      · exact h
    · exact h
  · exact h

theorem State.durable_protocol {s : State} (h : s.protocol) {b : BankId} {n : Nat} (hj : s.log.job = some ⟨b, n⟩) :
    (s.durable b).protocol := by
  have H := h.at b
  have hb := H.log.1 ⟨n, hj⟩
  have hf := H.fields
  simp only [Bank.fieldsSound, hb] at hf
  have hv : ({ s.bank b with state := .applyWait } : Bank).reserved = (s.bank b).reserved := by
    simp only [Bank.reserved, hb]
    cases (s.bank b).image <;> rfl
  refine ProtocolAt.to (b := b) (k := { s.bank b with state := .applyWait })
    (o := s.bank b.other) (by cases b <;> rfl) (by cases b <;> rfl) ?_
  exact {
    entries := H.entries
    fields := hf
    entries' := H.entries'
    fields' := H.fields'
    context := by have := H.context; simpa [State.durable, hb] using this
    context' := by simpa [State.durable] using H.context'
    log := by simp [State.durable]
    log' := by
      have := H.log'
      simp [hj] at this
      simp [State.durable, this]
    apply := by have := H.apply; simpa [State.durable, hb] using this
    apply' := by simpa [State.durable] using H.apply'
    flight := by
      intro i hi
      rcases H.flight i (by simpa [State.durable] using hi) with ⟨x, y⟩ | ⟨x, y⟩
      · have := H.apply.1 x; rw [hb] at this; cases this
      · exact .inr ⟨by simpa [State.durable] using x, y⟩
    used := by rw [hv]; simpa [State.durable] using H.used
    fits := by simpa [State.durable] using H.fits
    seq := fun _ => by
      have := H.seq (by simp [hb, BankState.committed])
      simpa [State.durable, Bank.rank] using this
    seq' := by simpa [State.durable] using H.seq'
    distinct := fun _ ho => H.distinct (by simp [hb, BankState.committed]) ho
    quiet := fun p q => by
      have := (H.quiet (by simpa [State.durable] using p) (by simpa [State.durable] using q)).1
      rw [hb] at this
      cases this
    format := by simpa [State.durable] using H.format
    slot := by have := H.slot; unfold State.slotSound at *; simpa [State.durable] using this }

/-- The words-completed count of the log writer's job is nothing the invariant reads. -/
theorem State.countImageWord_protocol {s : State} (h : s.protocol) {j : LogJob} (hj : s.log.job = some j) (n : Nat) :
    ({ s with log := { s.log with job := some ⟨j.bank, n⟩ } } : State).protocol := by
  obtain ⟨h1, h2, h3, h4, h5, h6, h7, h8⟩ := h
  refine ⟨h1, h2, ?_, h4, h5, h6, h7, h8⟩
  intro c
  have := h3 c
  rw [← show (s.bank c).state = (State.bank { s with log := { s.log with job := some ⟨j.bank, n⟩ } } c).state by
    cases c <;> rfl]
  rw [← this, hj]
  obtain ⟨jb, jn⟩ := j
  simp

theorem State.imageCompletion_protocol {s : State} (h : s.protocol) : s.imageCompletion.protocol := by
  unfold State.imageCompletion
  split
  · rename_i x _
    have ht := (State.landed_same s x).keeps h
    split
    · rename_i j hj
      split
      · unfold State.imageWordDone
        split
        · exact State.durable_protocol ht (n := j.words) (by rw [State.landed_log, hj])
        · exact State.countImageWord_protocol ht (by rw [State.landed_log, hj]) _
      · exact ht
    · exact ht
  · exact h

/-! ## The apply engine (R101 to R105) -/

theorem State.takeForApply_protocol {s : State} (h : s.protocol) {b : BankId} (hb : (s.bank b).state = .applyWait)
    (ha : s.apply.bank = none) : (s.takeForApply b).protocol := by
  have H := h.at b
  have hf := H.fields
  simp only [Bank.fieldsSound, hb] at hf
  have hv : ({ s.bank b with state := .applying, target := none } : Bank).reserved = (s.bank b).reserved := by
    simp only [Bank.reserved, hb]
    cases (s.bank b).image <;> rfl
  have hlen : 0 < (s.bank b).entries.length := List.length_pos_iff.2 hf.2.1
  refine ProtocolAt.to (b := b) (k := { s.bank b with state := .applying, target := none })
    (o := s.bank b.other) (by cases b <;> rfl) (by cases b <;> rfl) ?_
  exact {
    entries := H.entries
    fields := ⟨hf.1, by
      show (s.bank b).appliedCount < _
      rw [hf.2.2.1]; exact hlen, hf.2.2.2.1, fun i hi => by cases hi⟩
    entries' := H.entries'
    fields' := H.fields'
    context := by have := H.context; simpa [State.takeForApply, hb] using this
    context' := by simpa [State.takeForApply] using H.context'
    log := by have := H.log; simpa [State.takeForApply, hb] using this
    log' := by simpa [State.takeForApply] using H.log'
    apply := by simp [State.takeForApply]
    apply' := by
      have := H.apply'
      simp [ha] at this
      simp [State.takeForApply, this]
    flight := by intro i hi; simp [State.takeForApply] at hi
    used := by rw [hv]; simpa [State.takeForApply] using H.used
    fits := by simpa [State.takeForApply] using H.fits
    seq := fun _ => by
      have := H.seq (by simp [hb, BankState.committed])
      simpa [State.takeForApply, Bank.rank] using this
    seq' := by simpa [State.takeForApply] using H.seq'
    distinct := fun _ ho => H.distinct (by simp [hb, BankState.committed]) ho
    quiet := fun p q => by
      have := (H.quiet (by simpa [State.takeForApply] using p) (by simpa [State.takeForApply] using q)).1
      rw [hb] at this
      cases this
    format := by simpa [State.takeForApply] using H.format
    slot := by have := H.slot; unfold State.slotSound at *; simpa [State.takeForApply] using this }

theorem State.applyTake_protocol {s : State} (h : s.protocol) : s.applyTake.protocol := by
  unfold State.applyTake
  split
  · rename_i hc
    split
    · rename_i b hb
      split
      · have ht := State.takeForApply_protocol h (State.oldestIn_spec hb) hc.2
        unfold State.promoteHeld
        split
        · exact State.promoteIn_protocol ht _ _
        · exact ht
      · exact h
    · exact h
  · exact h

/-- R102: the position chosen is unapplied. -/
theorem Bank.choice_spec {k : Bank} (hk : ∀ i, k.target = some i → k.unapplied i) {i : Nat} (h : k.choice = some i) :
    k.unapplied i := by
  unfold Bank.choice at h
  split at h
  · rename_i hj; cases h; exact hk _ hj
  · rw [List.findIdx?_eq_some_iff_getElem] at h
    obtain ⟨hi, hp, _⟩ := h
    exact ⟨k.entries[i], by simp [hi], by simpa using hp⟩

theorem State.applyChoice_protocol {s : State} (h : s.protocol) : s.applyChoice.protocol := by
  unfold State.applyChoice
  split
  · rename_i b hb
    split
    · split
      · rename_i i hi
        split
        · rename_i e he
          have H := h.at b
          have hst := H.apply.1 hb
          have hf := H.fields
          simp only [Bank.fieldsSound, hst] at hf
          have hun := Bank.choice_spec hf.2.2.2 hi
          refine (State.claim_same _ _ _).keeps ?_
          obtain ⟨h1, h2, h3, h4, h5, h6, h7, h8⟩ := h
          refine ⟨h1, h2, h3, ⟨h4.1, ?_⟩, h5, h6, h7, h8⟩
          intro x hx
          cases hx
          refine ⟨b, hb, ?_⟩
          cases b <;> exact hun
        · exact h
      · exact h
    · exact h
  · exact h

/-- The entries after one is applied. -/
theorem applyAt_spec {es : List Entry} {i : Nat} {e : Entry} (he : es[i]? = some e) (ha : e.applied = false) :
    (applyAt es i).length = es.length ∧ (applyAt es i).map (·.addr) = es.map (·.addr) ∧
    (applyAt es i).countP (·.applied) = es.countP (·.applied) + 1 ∧
    (∀ j, j ≠ i → (applyAt es i)[j]? = es[j]?) ∧ (∀ x ∈ applyAt es i, ∃ y ∈ es, x = y ∨ x = { y with applied := true }) := by
  obtain ⟨hi, rfl⟩ := List.getElem?_eq_some_iff.1 he
  unfold applyAt
  refine ⟨by simp, ?_, ?_, ?_, ?_⟩
  · induction es generalizing i with
    | nil => simp at hi
    | cons x rest ih =>
      cases i with
      | zero => simp
      | succ n => simp only [List.modify_succ_cons, List.map_cons, List.cons.injEq, true_and]; exact ih (by simpa using hi) (by simp at he ⊢) (by simpa using ha)
  · induction es generalizing i with
    | nil => simp at hi
    | cons x rest ih =>
      cases i with
      | zero =>
        simp only [List.getElem_cons_zero] at ha
        simp [ha]
      | succ n =>
        simp only [List.modify_succ_cons, List.countP_cons]
        have := ih (i := n) (by simpa using hi) (by simp at he ⊢) (by simpa using ha)
        omega
  · intro j hj
    simp only [List.getElem?_modify]
    have : ¬ i = j := fun h => hj h.symm
    simp [this]
  · intro x hx
    rw [List.mem_iff_getElem?] at hx
    obtain ⟨j, hj⟩ := hx
    simp only [List.getElem?_modify] at hj
    cases hy : es[j]? with
    | none => simp [hy] at hj
    | some y =>
      refine ⟨y, List.mem_of_getElem? hy, ?_⟩
      simp only [hy, Option.map_eq_map, Option.map_some, Option.some.injEq] at hj
      split at hj
      · exact .inr hj.symm
      · exact .inl hj.symm

theorem Bank.entryApplied_spec {k : Bank} (he : k.entriesSound) {i : Nat} (hi : k.unapplied i) :
    (k.entryApplied i).entriesSound ∧ (k.entryApplied i).appliedCount = k.appliedCount + 1 ∧
    (k.entryApplied i).entries.length = k.entries.length ∧
    ∀ j, j ≠ i → k.unapplied j → (k.entryApplied i).unapplied j := by
  obtain ⟨e, h1, h2⟩ := hi
  obtain ⟨a1, a2, a3, a4, a5⟩ := applyAt_spec h1 h2
  refine ⟨⟨?_, ?_, ?_⟩, a3, a1, ?_⟩
  · show (applyAt k.entries i).length ≤ 256
    rw [a1]; exact he.1
  · show ((applyAt k.entries i).map (·.addr)).Nodup
    rw [a2]; exact he.2.1
  · intro x hx
    obtain ⟨y, hy, rfl | rfl⟩ := a5 x hx
    · exact he.2.2 x hy
    · exact he.2.2 y hy
  · rintro j hj ⟨x, hx, hxa⟩
    exact ⟨x, (a4 j hj).trans hx, hxa⟩

theorem State.homeWriteDone_protocol {s : State} (h : s.protocol) {b : BankId} {i : Nat} (hb : s.apply.bank = some b)
    (hi : s.apply.inFlight = some i) : (s.homeWriteDone b i).protocol := by
  have H := h.at b
  have hst := H.apply.1 hb
  have hun : (s.bank b).unapplied i := by
    rcases H.flight i hi with ⟨_, y⟩ | ⟨x, _⟩
    · exact y
    · rw [hb] at x
      exact absurd (Option.some.inj x) (BankId.ne_other b)
  have hf := H.fields
  simp only [Bank.fieldsSound, hst] at hf
  obtain ⟨e1, e2, e3, e4⟩ := Bank.entryApplied_spec H.entries hun
  have hso : (s.bank b.other).state ≠ .applying := fun e => by
    have := H.apply'.2 e
    rw [hb] at this
    exact BankId.ne_other b (Option.some.inj this)
  have hv : ∀ st t, (st = BankState.applying ∨ st = .retiring) →
      ({ (s.bank b).entryApplied i with state := st, target := t } : Bank).reserved = (s.bank b).reserved := by
    rintro st t (rfl | rfl) <;> simp only [Bank.reserved, hst, Bank.entryApplied]
    cases (s.bank b).image <;> rfl
  have hplaced : ((s.bank b).entryApplied i).placed := by
    obtain ⟨im, p1, p2⟩ := hf.2.2.1
    exact ⟨im, p1, by rw [p2, e3]⟩
  unfold State.homeWriteDone
  dsimp only
  split
  · rename_i hall
    refine (State.requestWrite_same _).keeps ?_
    refine ProtocolAt.to (b := b) (k := { (s.bank b).entryApplied i with state := .retiring, target := none })
      (o := s.bank b.other) (by cases b <;> rfl) (by cases b <;> rfl) ?_
    exact {
      entries := e1
      fields := ⟨hf.1, by
        intro e0
        have : ((s.bank b).entryApplied i).entries.length = 0 := by
          rw [show ((s.bank b).entryApplied i).entries = [] from e0]; rfl
        rw [e3] at this
        have := hf.2.1
        omega, hall, hplaced, rfl⟩
      entries' := H.entries'
      fields' := H.fields'
      context := by have := H.context; rw [hst] at this; cases b <;> simpa using this
      context' := by have := H.context'; cases b <;> simpa using this
      log := by have := H.log; rw [hst] at this; cases b <;> simpa using this
      log' := by have := H.log'; cases b <;> simpa using this
      apply := by simp
      apply' := by simp [hso]
      flight := by intro j hj; simp at hj
      used := by rw [hv _ _ (.inr rfl)]; have := H.used; cases b <;> simpa using this
      fits := by have := H.fits; cases b <;> simpa using this
      seq := fun _ => by
        have := H.seq (by simp [hst, BankState.committed])
        cases b <;> simpa [Bank.rank, Bank.entryApplied] using this
      seq' := by have := H.seq'; cases b <;> simpa using this
      distinct := fun _ ho => H.distinct (by simp [hst, BankState.committed]) ho
      quiet := fun p q => by
        have := (H.quiet (by cases b <;> simpa using p) (by cases b <;> simpa using q)).1
        rw [hst] at this
        cases this
      format := by have := H.format; cases b <;> simpa using this
      slot := by have := H.slot; unfold State.slotSound at *; cases b <;> simpa using this }
  · rename_i hnot
    have hle : ((s.bank b).entryApplied i).appliedCount ≤ ((s.bank b).entryApplied i).entries.length :=
      List.countP_le_length
    refine ProtocolAt.to (b := b) (k := (s.bank b).entryApplied i)
      (o := s.bank b.other) (by cases b <;> rfl) (by cases b <;> rfl) ?_
    have hk : ((s.bank b).entryApplied i).state = .applying := hst
    have hv' : ((s.bank b).entryApplied i).reserved = (s.bank b).reserved := by
      simp only [Bank.reserved, Bank.entryApplied, hst]
    exact {
      entries := e1
      fields := by
        simp only [Bank.fieldsSound, hk]
        refine ⟨hf.1, by omega, hplaced, ?_⟩
        intro j hj
        simp only [Bank.entryApplied] at hj
        split at hj
        · cases hj
        · rename_i hne
          exact e4 j (fun e => hne (e ▸ hj)) (hf.2.2.2 j hj)
      entries' := H.entries'
      fields' := H.fields'
      context := by have := H.context; rw [hk]; simpa [hst] using this
      context' := by simpa using H.context'
      log := by have := H.log; rw [hk]; simpa [hst] using this
      log' := by simpa using H.log'
      apply := by rw [hk]; simpa using hb
      apply' := by simpa using H.apply'
      flight := by intro j hj; simp at hj
      used := by rw [hv']; simpa using H.used
      fits := by simpa using H.fits
      seq := fun _ => by
        have := H.seq (by simp [hst, BankState.committed])
        simpa [Bank.rank, Bank.entryApplied] using this
      seq' := by simpa using H.seq'
      distinct := fun _ ho => H.distinct (by simp [hst, BankState.committed]) ho
      quiet := fun p q => by
        have := (H.quiet (by simpa using p) (by simpa using q)).1
        rw [hst] at this
        cases this
      format := by simpa using H.format
      slot := by have := H.slot; unfold State.slotSound at *; simpa using this }

theorem State.homeCompletion_protocol {s : State} (h : s.protocol) : s.homeCompletion.protocol := by
  unfold State.homeCompletion
  split
  · rename_i x _
    have ht := (State.landed_same s x).keeps h
    split
    · rename_i b i hb hi
      split
      · exact State.homeWriteDone_protocol ht (by rw [State.landed_apply, hb]) (by rw [State.landed_apply, hi])
      · exact ht
    · exact ht
    · exact ht
  · exact h

end Sys2Proof.Machine
end

