-- ==== Sys2Proof/Laws/ProtocolStartup.lean ====
section
/-! SUPPORT. Laws/ProtocolStartup.lean: the anchor writer, the start-up controller, the resets and the management port keep the
protocol invariant. -/

namespace Sys2Proof.Machine

/-! ## Both banks FREE -/

theorem Bank.free_eq {k : Bank} (h : k.fieldsSound) (hk : k.state = .free) : k = .empty := by
  obtain ⟨st, q, es, im, tg⟩ := k
  simp only at hk
  subst hk
  obtain ⟨h1, h2, h3, h4⟩ := h
  simp only at h1 h2 h3 h4
  subst h1; subst h2; subst h3; subst h4
  rfl

/-- What the invariant says where both banks are FREE. -/
structure Quiet (s : State) : Prop where
  bank0   : s.bank0 = .empty
  bank1   : s.bank1 = .empty
  context : ∀ b, s.txn.context ≠ .opened b
  job     : s.log.job = none
  apply   : s.apply.bank = none
  flight  : s.apply.inFlight = none
  used    : s.log.used = 0

theorem State.protocol.quiet {s : State} (h : s.protocol) (h0 : s.bank0.state = .free) (h1 : s.bank1.state = .free) :
    Quiet s := by
  obtain ⟨k1, k2, k3, k4, k5, k6, k7, k8⟩ := h
  have e0 : s.bank0 = .empty := Bank.free_eq (k1 .b0).2 h0
  have e1 : s.bank1 = .empty := Bank.free_eq (k1 .b1).2 h1
  have hb : ∀ b, (s.bank b).state = .free := fun b => by cases b <;> assumption
  refine ⟨e0, e1, ?_, ?_, ?_, ?_, ?_⟩
  · intro b e
    have := (k2 b).1 e
    rw [hb] at this
    cases this
  · cases hj : s.log.job with
    | none => rfl
    | some j =>
      have := (k3 j.bank).1 ⟨j.words, hj⟩
      rw [hb] at this
      cases this
  · cases ha : s.apply.bank with
    | none => rfl
    | some b =>
      have := (k4.1 b).1 ha
      rw [hb] at this
      cases this
  · cases hi : s.apply.inFlight with
    | none => rfl
    | some i =>
      obtain ⟨b, hb', _⟩ := k4.2 i hi
      have := (k4.1 b).1 hb'
      rw [hb] at this
      cases this
  · have := k5.1
    rw [e0, e1] at this
    simpa using this

/-- A state with both banks FREE and nothing under way on them is sound. -/
theorem Quiet.protocol {s : State} (q : Quiet s) (hf : s.anchor.format.isSome = true → s.start.part = .formatting ∨
    s.start.part = .halted) (hs : s.slotSound) : s.protocol := by
  have hb : ∀ b, s.bank b = .empty := fun b => by
    cases b
    · exact q.bank0
    · exact q.bank1
  refine ⟨?_, ?_, ?_, ⟨?_, ?_⟩, ⟨?_, ?_⟩, ⟨?_, ?_⟩, ⟨?_, hf⟩, hs⟩
  · intro b; rw [hb]; exact ⟨Bank.empty_entriesSound, Bank.empty_fieldsSound⟩
  · intro b; rw [hb]; simp [q.context b]
  · intro b; rw [hb, q.job]; simp
  · intro b; rw [hb, q.apply]; simp
  · intro i hi; rw [q.flight] at hi; cases hi
  · rw [q.used, q.bank0, q.bank1]; rfl
  · rw [q.used]; exact Nat.zero_le _
  · intro b; rw [hb]; simp [BankState.committed]
  · rw [q.bank0]; simp [BankState.committed]
  · intro _ _; rw [q.bank0, q.bank1]; exact ⟨rfl, rfl⟩

/-- What holds of the banks outside RUN and HALTED. -/
theorem State.protocol.quietIn {s : State} (h : s.protocol) (p : s.start.part ≠ .run) (q : s.start.part ≠ .halted) :
    Quiet s := h.quiet (h.2.2.2.2.2.2.1.1 p q).1 (h.2.2.2.2.2.2.1.1 p q).2

theorem State.protocol.formatIn {s : State} (h : s.protocol) :
    s.anchor.format.isSome = true → s.start.part = .formatting ∨ s.start.part = .halted := h.2.2.2.2.2.2.1.2

theorem State.protocol.noFormat {s : State} (h : s.protocol) (p : s.start.part ≠ .formatting) (q : s.start.part ≠ .halted) :
    s.anchor.format = none := by
  cases hf : s.anchor.format with
  | none => rfl
  | some j =>
    rcases h.formatIn (by rw [hf]; rfl) with e | e
    · exact absurd e p
    · exact absurd e q

/-! ## The anchor writer (R108, R123, R128, R129) -/

theorem State.retireBank_protocol {s : State} (h : s.protocol) (b : BankId) : (s.retireBank b).protocol := by
  unfold State.retireBank
  split
  · rename_i hb
    have H := h.at b
    have hf := H.fields
    simp only [Bank.fieldsSound, hb] at hf
    obtain ⟨im, p1, p2⟩ := hf.2.2.2.1
    have hr : (s.bank b).reserved = im.size := by simp only [Bank.reserved, hb, p1]
    have hu := H.used
    rw [hr] at hu
    refine ProtocolAt.to (b := b) (k := .empty) (o := s.bank b.other) (by cases b <;> rfl) (by cases b <;> rfl) ?_
    exact {
      entries := Bank.empty_entriesSound
      fields := Bank.empty_fieldsSound
      entries' := H.entries'
      fields' := H.fields'
      context := by have := H.context; rw [hb] at this; simpa using this
      context' := by simpa using H.context'
      log := by have := H.log; rw [hb] at this; simpa using this
      log' := by simpa using H.log'
      apply := by have := H.apply; rw [hb] at this; simpa using this
      apply' := by simpa using H.apply'
      flight := by
        intro i hi
        rcases H.flight i (by simpa using hi) with ⟨x, y⟩ | ⟨x, y⟩
        · have := H.apply.1 x; rw [hb] at this; cases this
        · exact .inr ⟨by simpa using x, y⟩
      used := by
        show s.log.used - _ = _
        rw [p1, Bank.empty_reserved]
        dsimp only
        omega
      fits := by
        have := H.fits
        show s.log.used - _ ≤ _
        simp only [State.setBank_anchor]
        omega
      seq := by simp [BankState.committed]
      seq' := by simpa using H.seq'
      distinct := by simp [BankState.committed]
      quiet := fun p q => ⟨rfl, (H.quiet (by simpa using p) (by simpa using q)).2⟩
      format := by simpa using H.format
      slot := by have := H.slot; unfold State.slotSound at *; simpa using this }
  · exact h

theorem State.retireCovered_protocol {s : State} (h : s.protocol) (w : AnchorWrite) : (s.retireCovered w).protocol := by
  unfold State.retireCovered
  dsimp only
  split <;> split <;> first
    | exact State.retireBank_protocol (State.retireBank_protocol h _) _
    | exact State.retireBank_protocol h _
    | exact h

theorem State.retireBank_part (s : State) (b : BankId) : (s.retireBank b).start = s.start := by
  unfold State.retireBank; split
  · cases b <;> rfl
  · rfl

theorem State.retireCovered_start (s : State) (w : AnchorWrite) : (s.retireCovered w).start = s.start := by
  unfold State.retireCovered
  dsimp only
  split <;> split <;> simp only [State.retireBank_part]

theorem State.finishFormat_protocol {s : State} (h : s.protocol) (hp : s.start.part = .formatting) :
    s.finishFormat.protocol := by
  have q := h.quietIn (by rw [hp]; decide) (by rw [hp]; decide)
  exact Quiet.protocol ⟨q.bank0, q.bank1, q.context, q.job, q.apply, q.flight, rfl⟩ (fun e => by cases e) h.slot

theorem State.setFormat_protocol {s : State} (h : s.protocol) (hp : s.start.part = .formatting) (j : FormatJob) :
    ({ s with anchor := { s.anchor with format := some j } } : State).protocol := by
  have q := h.quietIn (by rw [hp]; decide) (by rw [hp]; decide)
  exact Quiet.protocol ⟨q.bank0, q.bank1, q.context, q.job, q.apply, q.flight, q.used⟩ (fun _ => .inl hp) h.slot

theorem State.formatWriteDone_protocol {s : State} (h : s.protocol) (hh : s.start.part ≠ .halted) :
    s.formatWriteDone.protocol := by
  unfold State.formatWriteDone
  split
  · rename_i j hj
    have hp : s.start.part = .formatting := (h.formatIn (by rw [hj]; rfl)).resolve_right hh
    split
    · exact State.finishFormat_protocol h hp
    · exact h
    · exact State.setFormat_protocol h hp _
    · exact h
  · exact h

theorem State.carriedDone_protocol {s : State} (h : s.protocol) (hh : s.start.part ≠ .halted) (w : AnchorWrite) :
    (s.carriedDone w).protocol := by
  unfold State.carriedDone
  split
  · exact (State.statusDone_same s).keeps h
  · exact State.formatWriteDone_protocol h hh
  · exact h

theorem State.handOver_protocol {s : State} (q : Quiet s) (hs : s.slotSound) (hf : s.anchor.format = none) (p : PartState) :
    (s.handOver p).protocol := by
  refine Quiet.protocol ⟨q.bank0, q.bank1, ?_, q.job, q.apply, q.flight, q.used⟩ (fun e => ?_) hs
  · intro b e
    simp only [State.handOver, contextAtStart] at e
    split at e <;> cases e
  · rw [State.handOver_anchor, hf] at e; cases e

theorem State.endStartup_protocol {s : State} (q : Quiet s) (hs : s.slotSound) (hf : s.anchor.format = none)
    (p : PartState) : (s.endStartup p).protocol := by
  unfold State.endStartup
  split
  · exact State.takeCycle_protocol (State.handOver_protocol q hs hf p)
  · exact State.handOver_protocol q hs hf p

theorem State.closingDone_protocol {s : State} (h : s.protocol) : s.closingDone.protocol := by
  unfold State.closingDone
  split
  · rename_i hp
    exact State.endStartup_protocol (h.quietIn (by rw [hp]; decide) (by rw [hp]; decide)) h.slot
      (h.noFormat (by rw [hp]; decide) (by rw [hp]; decide)) .run
  · exact h

theorem State.completeWrite_protocol {s : State} (h : s.protocol) (hh : s.start.part ≠ .halted) (w : AnchorWrite) :
    (s.completeWrite w).protocol := by
  unfold State.completeWrite
  refine State.closingDone_protocol (State.examineHold_protocol (State.openWaiting_protocol
    (State.carriedDone_protocol (State.retireCovered_protocol ((State.writeDone_same s w).keeps h) w) ?_ w)))
  rw [State.retireCovered_start]
  exact hh

theorem State.anchorCompletion_protocol {s : State} (h : s.protocol) : s.anchorCompletion.protocol := by
  unfold State.anchorCompletion
  split
  · rename_i x w _ _
    have ht := (State.landed_same s x).keeps h
    split
    · rename_i hw
      unfold State.anchorWordDone
      split
      · refine State.completeWrite_protocol ht ?_ w
        rw [State.landed_start]
        intro e
        rw [e] at hw
        cases hw
      · exact (State.countWord_same _ w).keeps ht
    · exact ht
  · exact h
  · exact h

theorem State.pendingStart_same (s : State) : SameProtocol s s.pendingStart := by
  unfold State.pendingStart
  split
  · exact State.startWrite_same s
  · exact SameProtocol.refl s

theorem State.formatCleared_protocol {s : State} (h : s.protocol) (hp : s.start.part = .formatting) (j : FormatJob) :
    (s.formatCleared j).protocol := by
  have q := h.quietIn (by rw [hp]; decide) (by rw [hp]; decide)
  exact Quiet.protocol ⟨q.bank0, q.bank1, q.context, q.job, q.apply, q.flight, q.used⟩ (fun _ => .inl hp) h.slot

theorem State.clearCompletion_protocol {s : State} (h : s.protocol) : s.clearCompletion.protocol := by
  unfold State.clearCompletion
  split
  · rename_i x j _ _
    have ht := (State.landed_same s x).keeps h
    split
    · rename_i hp; exact State.formatCleared_protocol ht hp j
    · exact ht
  · exact h
  · exact h

theorem State.secondStart_protocol {s : State} (h : s.protocol) : s.secondStart.protocol := by
  unfold State.secondStart
  split
  · rename_i j _
    split
    · rename_i hc; exact (State.startWrite_same _).keeps (State.setFormat_protocol h hc.1 _)
    · exact h
  · exact h

/-! ## Halts and resets (R157, R145) -/

theorem State.enterHalted_protocol {s : State} (h : s.protocol) : s.enterHalted.protocol := by
  obtain ⟨h1, h2, h3, h4, h5, h6, h7, h8⟩ := h
  refine ⟨h1, h2, h3, h4, h5, h6, ⟨fun _ q => absurd rfl q, fun _ => .inr rfl⟩, h8⟩

theorem State.resetBy_protocol (s : State) (c : ResetCause) (x : Straps) : (s.resetBy c x).protocol :=
  Quiet.protocol ⟨rfl, rfl, fun _ e => (by cases e), rfl, rfl, rfl, rfl⟩ (fun e => by cases e) (fun _ e => by cases e)

/-! ## Start-up (R147 to R154) -/

theorem Quiet.scan {s : State} (q : Quiet s) (x : StartupController) : Quiet { s with start := x } :=
  ⟨q.bank0, q.bank1, q.context, q.job, q.apply, q.flight, q.used⟩

theorem State.endScan_protocol {s : State} (q : Quiet s) (hs : s.slotSound) (hf : s.anchor.format = none) :
    s.endScan.protocol := by
  have qt : Quiet s.settleScan := ⟨q.bank0, q.bank1, q.context, q.job, q.apply, q.flight, rfl⟩
  unfold State.endScan
  dsimp only
  split
  · exact (State.requestWrite_same _).keeps (Quiet.protocol (qt.scan _) (fun e => by
      rw [show s.settleScan.anchor.format = s.anchor.format from rfl, hf] at e; cases e) hs)
  · exact State.endStartup_protocol qt hs hf .run

theorem State.stopScan_protocol {s : State} (q : Quiet s) (hs : s.slotSound) (hf : s.anchor.format = none) (d : Bool) :
    (s.stopScan d).protocol := by
  unfold State.stopScan
  split
  · exact State.endScan_protocol ⟨q.bank0, q.bank1, q.context, q.job, q.apply, q.flight, q.used⟩ hs hf
  · exact State.endScan_protocol q hs hf

theorem State.scanHere_protocol {s : State} (q : Quiet s) (hs : s.slotSound) (hf : s.anchor.format = none) :
    s.scanHere.protocol := by
  unfold State.scanHere
  dsimp only
  split
  · exact State.stopScan_protocol (q.scan _) hs hf _
  · exact Quiet.protocol (q.scan _) (fun e => by rw [hf] at e; cases e) hs

theorem State.offerCopy_spec (s : State) (c : Copy) (f : Option Reason) :
    ∃ m, s.offerCopy c f = { s with mgmt := m } := by
  unfold State.offerCopy
  split
  · exact ⟨_, rfl⟩
  · exact ⟨s.mgmt, rfl⟩

theorem State.chooseAnchor_protocol {s : State} (q : Quiet s) (hs : s.slotSound) (hf : s.anchor.format = none)
    (a b : List Word) : (s.chooseAnchor a b).protocol := by
  obtain ⟨m, hm⟩ := State.offerCopy_spec s .a (copyFailure s.memSize a)
  obtain ⟨n, hn⟩ := State.offerCopy_spec { s with mgmt := m } .b (copyFailure s.memSize b)
  unfold State.chooseAnchor
  dsimp only
  rw [hm, hn]
  split
  · exact State.scanHere_protocol ⟨q.bank0, q.bank1, q.context, q.job, q.apply, q.flight, q.used⟩ hs hf
  · exact State.scanHere_protocol ⟨q.bank0, q.bank1, q.context, q.job, q.apply, q.flight, q.used⟩ hs hf
  · have qt : Quiet (State.reportUnformatted { s with mgmt := n }) :=
      ⟨q.bank0, q.bank1, q.context, q.job, q.apply, q.flight, q.used⟩
    exact State.endStartup_protocol qt hs hf .unformatted

theorem State.endAnchorReads_protocol {s : State} (h : s.protocol) (hp : s.start.part = .startup) (ws : List Word) :
    (s.endAnchorReads ws).protocol := by
  have q := h.quietIn (by rw [hp]; decide) (by rw [hp]; decide)
  have hf := h.noFormat (by rw [hp]; decide) (by rw [hp]; decide)
  unfold State.endAnchorReads
  split
  · exact State.chooseAnchor_protocol q h.slot hf _ _
  · exact State.enterHalted_protocol (Quiet.protocol (q.scan _) (fun e => by rw [hf] at e; cases e) h.slot)

theorem State.anchorReadDone_protocol {s : State} (h : s.protocol) : s.anchorReadDone.protocol := by
  unfold State.anchorReadDone
  split
  · rename_i x words _ _
    have ht := (State.landed_same s x).keeps h
    split
    · rename_i hp
      unfold State.anchorWordRead
      split
      · exact State.endAnchorReads_protocol ht hp _
      · exact SameProtocol.keeps (s := s.landed x) ⟨rfl, rfl, rfl, rfl, rfl, rfl, rfl, rfl, rfl, rfl, rfl⟩ ht
    · exact ht
  · exact h

theorem State.takenInScan_same (s : State) (place : ImagePlace) (w : Word) : SameProtocol s (s.takenInScan place w) :=
  ⟨rfl, rfl, rfl, rfl, rfl, rfl, rfl, rfl, rfl, rfl, rfl⟩

theorem State.scanWord_protocol {s : State} (h : s.protocol) (hp : s.start.part = .recovery) (word count : Nat) (head w : Word) :
    (s.scanWord word count head w).protocol := by
  have same := State.takenInScan_same s (imagePlace word count) w
  have ht := same.keeps h
  have hq : (s.takenInScan (imagePlace word count) w).start.part = .recovery := same.part.trans hp
  unfold State.scanWord
  dsimp only
  split
  · exact SameProtocol.keeps (s := s.takenInScan (imagePlace word count) w) ⟨rfl, rfl, rfl, rfl, rfl, rfl, rfl, rfl, rfl, rfl, rfl⟩ ht
  · exact State.stopScan_protocol (ht.quietIn (by rw [hq]; decide) (by rw [hq]; decide)) ht.slot
      (ht.noFormat (by rw [hq]; decide) (by rw [hq]; decide)) _

theorem State.scanReadDone_protocol {s : State} (h : s.protocol) : s.scanReadDone.protocol := by
  unfold State.scanReadDone
  split
  · rename_i x word count head _ _
    have ht := (State.landed_same s x).keeps h
    split
    · rename_i hp
      exact State.scanWord_protocol ht (by rw [State.landed_start, hp]) word count head _
    · exact ht
  · exact h

theorem State.replayReadDone_same (s : State) : SameProtocol s s.replayReadDone := by
  unfold State.replayReadDone
  repeat' split
  · exact ⟨rfl, rfl, rfl, rfl, rfl, rfl, rfl, rfl, rfl, rfl, rfl⟩
  · exact State.landed_same s _
  · exact SameProtocol.refl s
  · exact SameProtocol.refl s

theorem State.replayWriteDone_protocol {s : State} (h : s.protocol) : s.replayWriteDone.protocol := by
  unfold State.replayWriteDone
  split
  · rename_i x count entry record _ _
    have ht := (State.landed_same s x).keeps h
    split
    · exact h
    · split
      · rename_i hp
        unfold State.replayedEntry
        split
        · exact SameProtocol.keeps (s := s.landed x) ⟨rfl, rfl, rfl, rfl, rfl, rfl, rfl, rfl, rfl, rfl, rfl⟩ ht
        · have q := ht.quietIn (by rw [State.landed_start, hp]; decide) (by rw [State.landed_start, hp]; decide)
          exact State.scanHere_protocol (q.scan _) ht.slot
            (ht.noFormat (by rw [State.landed_start, hp]; decide) (by rw [State.landed_start, hp]; decide))
      · exact ht
  · exact h

/-! ## The management port -/

theorem State.configByte_protocol {s : State} (h : s.protocol) (o : Nat) (l : List Byte) (b : Byte) :
    (s.configByte o l b).2.protocol := by
  have hc : ∀ c, (s.setConfig c).protocol := fun c => (State.setConfig_same s c).keeps h
  unfold State.configByte
  split
  · exact h
  · show (State.openLimitActs _).protocol
    unfold State.openLimitActs
    split
    · exact State.voidTxn_protocol (hc _) _
    · exact hc _
  · exact h
  · show (State.holdLimitActs _).protocol
    unfold State.holdLimitActs
    split
    · exact State.expireHold_protocol (hc _)
    · exact hc _
  · exact hc _
  · exact hc _
  · exact h

theorem State.acceptByte_protocol {s : State} (h : s.protocol) (i o : Nat) (l : List Byte) (b : Byte) :
    (s.acceptByte i o l b).2.protocol := by
  have hm : ∀ m, ({ s with mgmt := m } : State).protocol := fun m =>
    SameProtocol.keeps (s := s) ⟨rfl, rfl, rfl, rfl, rfl, rfl, rfl, rfl, rfl, rfl, rfl⟩ h
  unfold State.acceptByte
  split
  · exact State.configByte_protocol h _ _ _
  · unfold State.editByte
    split <;> exact hm _
  · unfold State.liveByte
    split <;> exact hm _
  · unfold State.viewByte
    split <;> exact hm _
  · unfold State.commandByte
    split <;> exact hm _
  · exact h

theorem State.takeByte_protocol {s : State} (h : s.protocol) (w : WriteTransfer) (b : Byte) : (s.takeByte w b).2.2.protocol := by
  unfold State.takeByte
  split
  · exact h
  · split
    · split
      · exact h
      · exact (State.setPointer_same s b).keeps h
    · split
      · exact h
      · exact State.acceptByte_protocol h _ _ _ _

theorem takeBytes_protocol (bs : List Byte) : ∀ (w : WriteTransfer) {s : State}, s.protocol → (takeBytes bs w s).2.2.protocol := by
  induction bs with
  | nil => intro w s h; exact h
  | cons b rest ih => intro w s h; exact ih _ (State.takeByte_protocol h w b)

theorem State.endTransfer_same (s : State) : SameProtocol s s.endTransfer := by
  unfold State.endTransfer
  dsimp only
  split
  · split <;> exact ⟨rfl, rfl, rfl, rfl, rfl, rfl, rfl, rfl, rfl, rfl, rfl⟩
  · exact State.setTransfer_same s none
  · exact State.setTransfer_same s none

theorem State.closeStretch_protocol {s : State} (h : s.protocol) (t : Transfer) (stop : Bool) : (s.closeStretch t stop).protocol := by
  have ht := (State.setTransfer_same s (some t)).keeps h
  unfold State.closeStretch
  split
  · exact (State.endTransfer_same _).keeps ht
  · exact ht

theorem State.goOnWriting_protocol {s : State} (h : s.protocol) (w : WriteTransfer) (acks : List Bool) (bs : List Byte)
    (stop : Bool) : (s.goOnWriting w acks bs stop).protocol :=
  State.closeStretch_protocol ((State.setAcks_same _ _).keeps (takeBytes_protocol bs w h)) _ _

theorem State.refuseStretch_protocol {s : State} (h : s.protocol) (n : Nat) (stop : Bool) : (s.refuseStretch n stop).protocol := by
  unfold State.refuseStretch
  dsimp only
  split
  · exact (State.endTransfer_same _).keeps ((State.setAcks_same s _).keeps h)
  · exact (State.setAcks_same s _).keeps h

theorem State.writeTransfer_protocol {s : State} (h : s.protocol) (frame : Framing) (first bs : List Byte) :
    (s.writeTransfer frame first bs).protocol := by
  have he := (State.endTransfer_same s).keeps h
  unfold State.writeTransfer
  dsimp only
  split
  · split
    · exact State.goOnWriting_protocol he _ _ _ _
    · exact he
  · split
    · exact State.goOnWriting_protocol h _ _ _ _
    · exact State.refuseStretch_protocol h _ _
    · exact State.refuseStretch_protocol h _ _

theorem State.dropOldest_same (s : State) : SameProtocol s s.dropOldest := by
  unfold State.dropOldest
  split <;> exact ⟨rfl, rfl, rfl, rfl, rfl, rfl, rfl, rfl, rfl, rfl, rfl⟩

theorem State.sendBytes_protocol {s : State} (h : s.protocol) (left : List Byte) (n : Nat) (stop : Bool) :
    (s.sendBytes left n stop).protocol := by
  have ht : ({ s with mgmt := { s.mgmt with readData := readBytes left n } } : State).protocol :=
    SameProtocol.keeps (s := s) ⟨rfl, rfl, rfl, rfl, rfl, rfl, rfl, rfl, rfl, rfl, rfl⟩ h
  exact State.closeStretch_protocol ht _ _

theorem State.sendNothing_protocol {s : State} (h : s.protocol) (stop : Bool) : (s.sendNothing stop).protocol := by
  have ht : ({ s with mgmt := { s.mgmt with readData := [] } } : State).protocol :=
    SameProtocol.keeps (s := s) ⟨rfl, rfl, rfl, rfl, rfl, rfl, rfl, rfl, rfl, rfl, rfl⟩ h
  unfold State.sendNothing
  dsimp only
  split
  · exact (State.endTransfer_same _).keeps ht
  · exact ht

theorem State.valuesTaken_same (s : State) : SameProtocol s s.valuesTaken := by
  unfold State.valuesTaken
  split
  · exact State.dropOldest_same s
  · exact SameProtocol.refl s

theorem State.readTransfer_protocol {s : State} (h : s.protocol) (frame : Framing) (n : Nat) : (s.readTransfer frame n).protocol := by
  have he := (State.endTransfer_same s).keeps h
  unfold State.readTransfer
  dsimp only
  split
  · split
    · exact State.sendBytes_protocol ((State.valuesTaken_same _).keeps he) _ _ _
    · exact he
  · split
    · exact State.sendBytes_protocol h _ _ _
    · exact State.sendNothing_protocol h _
    · exact State.sendNothing_protocol h _

theorem State.takeDue_protocol {s : State} (h : s.protocol) (n : Byte → Bool) (f : Byte → State → State)
    (hf : ∀ c t, SameProtocol s t → t.start.part.working = true → t.protocol → (f c t).protocol) :
    (s.takeDue n f).protocol := by
  have hd := State.disarm_same s
  unfold State.takeDue
  split
  · split
    · split
      · rename_i hw; exact hf _ _ hd hw (hd.keeps h)
      · exact hd.keeps h
    · exact h
  · exact h

theorem State.abortTaken_protocol {s : State} (h : s.protocol) : s.abortTaken.protocol := by
  unfold State.abortTaken
  split
  · exact (State.setStatus_same _ _ _ _).keeps (State.voidTxn_protocol h _)
  · exact (State.setStatus_same _ _ _ _).keeps (State.voidTxn_protocol h _)
  · exact (State.setStatus_same _ _ _ _).keeps h
  · exact (State.setStatus_same _ _ _ _).keeps h

theorem State.guardsTaken_protocol {s : State} (h : s.protocol) : s.guardsTaken.protocol := by
  unfold State.guardsTaken
  split
  · exact (State.setStatus_same _ _ _ _).keeps h
  · split
    · refine (State.requestWrite_same _).keeps ((State.setStatus_same _ _ _ _).keeps ?_)
      exact SameProtocol.keeps (s := s) ⟨rfl, rfl, rfl, rfl, rfl, rfl, rfl, rfl, rfl, rfl, rfl⟩ h
    · exact (State.setStatus_same _ _ _ _).keeps h

theorem State.formatTaken_protocol {s : State} (h : s.protocol) : s.formatTaken.protocol := by
  unfold State.formatTaken
  split
  · exact (State.setStatus_same _ _ _ _).keeps h
  · rename_i hb
    split
    · simp only [State.formatBusy, Bool.or_eq_true, decide_eq_true_eq, not_or, not_and, ne_eq, Decidable.not_not] at hb
      have q := h.quiet (by simpa using hb.1.1.2.1) (by simpa using hb.1.1.2.2)
      refine (State.claim_same _ _ _).keeps ((State.setStatus_same _ _ _ _).keeps ?_)
      exact Quiet.protocol ⟨q.bank0, q.bank1, q.context, q.job, q.apply, q.flight, q.used⟩ (fun _ => .inl rfl) h.slot
    · exact (State.setStatus_same _ _ _ _).keeps h

theorem State.nextClaim_protocol {s : State} (h : s.protocol) (who : Claimant) : (s.nextClaim who).protocol := by
  unfold State.nextClaim
  split
  · split
    · unfold State.claimLog
      split
      · split
        · refine (State.claim_same _ _ _).keeps ?_
          exact SameProtocol.keeps (s := s) ⟨rfl, rfl, rfl, rfl, rfl, rfl, rfl, rfl, rfl, rfl, rfl⟩ h
        · exact h
      · exact h
    · unfold State.claimAnchor
      split
      · split
        · exact (State.claim_same _ _ _).keeps h
        · exact h
      · exact h
    · unfold State.claimStartup
      split
      · split
        · exact (State.claim_same _ _ _).keeps h
        · exact h
      · exact h
    · exact State.takeWaiting_protocol h
    · exact h
  · exact h

end Sys2Proof.Machine
end

