-- ==== Sys2Proof/Laws/Scan.lean ====
section
/-! SUPPORT. Laws/Scan.lean: what the scan of the log tests of each image word. -/

namespace Sys2Proof.Machine

/-- R83: the kind code is bits 15 to 12 of a record's first word. -/
theorem recordKind_iff (w : Word) (k : Nat) (hk : k < 16) :
    (recordKind w == k) = true ↔ w.extractLsb' 12 4 = BitVec.ofNat 4 k := by
  simp only [recordKind, beq_iff_eq]
  constructor
  · intro h; apply BitVec.eq_of_toNat_eq; simp [BitVec.extractLsb'_toNat, Nat.shiftRight_eq_div_pow]; omega
  · intro h; have := congrArg BitVec.toNat h
    simp [BitVec.extractLsb'_toNat, Nat.shiftRight_eq_div_pow] at this
    have := w.isLt; omega

/-- R83, R84: bits 11 and 10 of an ENTRY record's first word are its lane set, and 00 is no lane set. -/
theorem recordLanes_iff (w : Word) : (!noLane (recordLanes w)) = true ↔ w.extractLsb' 10 2 ≠ 0#2 := by
  have h : w.extractLsb' 10 2 = 0#2 ↔ (w.getLsbD 10 = false ∧ w.getLsbD 11 = false) := by
    constructor
    · intro h
      have h0 := congrArg (fun b => b.getLsbD 0) h
      have h1 := congrArg (fun b => b.getLsbD 1) h
      simp only [BitVec.getLsbD_extractLsb'] at h0 h1
      exact ⟨by simpa using h0, by simpa using h1⟩
    · rintro ⟨h0, h1⟩
      apply BitVec.eq_of_getLsbD_eq
      intro i hi
      rw [BitVec.getLsbD_extractLsb']
      interval_cases i
      · simpa using h0
      · simpa using h1
  simp only [noLane, recordLanes]
  rw [ne_eq, h]; cases w.getLsbD 10 <;> cases w.getLsbD 11 <;> simp

/-- R150: the count test. -/
theorem countFits_iff (s : State) (w : Word) : s.countFits w = true ↔
    1 ≤ w.toNat ∧ w.toNat ≤ 256 ∧ s.start.scan.scanned + (3 * w.toNat + 8) ≤ s.anchor.image.logSize := by
  unfold State.countFits
  rw [Bool.and_eq_true, Bool.and_eq_true, decide_eq_true_eq, decide_eq_true_eq, decide_eq_true_eq, and_assoc]
  rfl

/-- R150: the address test. -/
theorem entryAddrOk_iff (s : State) (a : Addr) : s.entryAddrOk a = true ↔
    a.toNat < s.memSize ∧ 128 ≤ a.toNat ∧
      ¬(s.anchor.image.logBase ≤ a.toNat ∧ a.toNat < s.anchor.image.logBase + s.anchor.image.logSize) := by
  unfold State.entryAddrOk LogRegion.contains State.imageRegion
  rw [Bool.and_eq_true, Bool.and_eq_true, decide_eq_true_eq, decide_eq_true_eq, Bool.not_eq_true', ← Bool.not_eq_true,
    Bool.and_eq_true, decide_eq_true_eq, decide_eq_true_eq, and_assoc]
  rfl

/-- R150: the scan's test of one image word is what `State.scanPasses` says. -/
theorem scanTest_iff (s : State) (word count : Nat) (head w : Word) :
    s.scanTest (imagePlace word count) head w = true ↔ s.scanPasses word count head w := by
  unfold State.scanPasses
  by_cases h : word < 4
  · rw [show imagePlace word count = .begin word by simp [imagePlace, h]]
    interval_cases word <;> simp [State.scanTest, recordKind_iff, countFits_iff, highHalf, lowHalf, -beq_iff_eq, beq_iff_eq (α := Word)]
  · have h4 : 4 ≤ word := by omega
    by_cases h2 : word < 4 + 3 * count
    · rw [show imagePlace word count = .entry ((word - 4) % 3) by simp [imagePlace, h, h2]]
      have n5 : word ≠ 4 + 3 * count := by omega
      have n6 : word ≠ 5 + 3 * count := by omega
      have n7 : word ≠ 6 + 3 * count := by omega
      have n8 : ¬ 7 + 3 * count ≤ word := by omega
      have n0 : word ≠ 0 ∧ word ≠ 1 ∧ word ≠ 2 ∧ word ≠ 3 := by omega
      simp only [n0, n5, n6, n7, n8, h4, h2, false_and, and_false, or_false, false_or, true_and]
      have hm := Nat.mod_lt (word - 4) (show 0 < 3 by decide)
      generalize (word - 4) % 3 = i at hm
      have hl : noLane (recordLanes w) = false ↔ ¬w.extractLsb' 10 2 = 0#2 := by
        rw [← Bool.not_eq_true']; exact recordLanes_iff w
      interval_cases i <;> simp [State.scanTest, recordKind_iff, hl, entryAddrOk_iff, joinAddr, -beq_iff_eq, -not_and]
    · rw [show imagePlace word count = .commit (word - 4 - 3 * count) by simp [imagePlace, h, h2]]
      obtain ⟨i, hi⟩ : ∃ i, word = 4 + 3 * count + i := ⟨word - 4 - 3 * count, by omega⟩
      subst hi
      rw [show 4 + 3 * count + i - 4 - 3 * count = i by omega]
      have n0 : 4 + 3 * count + i ≠ 0 ∧ 4 + 3 * count + i ≠ 1 ∧ 4 + 3 * count + i ≠ 2 ∧ 4 + 3 * count + i ≠ 3 := by omega
      have e5 : (4 + 3 * count + i = 4 + 3 * count) = (i = 0) := by simp
      have e6 : (4 + 3 * count + i = 5 + 3 * count) = (i = 1) := by apply propext; omega
      have e7 : (4 + 3 * count + i = 6 + 3 * count) = (i = 2) := by apply propext; omega
      have e8 : (7 + 3 * count ≤ 4 + 3 * count + i) = (3 ≤ i) := by apply propext; omega
      simp only [n0, h4, h2, e5, e6, e7, e8, false_and, and_false, false_or, true_and]
      unfold State.scanTest
      by_cases q0 : i = 0
      · subst q0; simp [recordKind_iff, -beq_iff_eq]
      · by_cases q1 : i = 1
        · subst q1; simp [highHalf]
        · by_cases q2 : i = 2
          · subst q2; simp [lowHalf]
          · simp [q0, q1, q2, show 3 ≤ i by omega]

end Sys2Proof.Machine
end

