-- ==== Sys2Proof/WellFormed.lean ====
section
/-! DEFINITION. WellFormed.lean: which terms of `Instr` stand for something that can arrive at the block. The widths are in
the operand types; what is left to check is the shape of an I2C transfer. `exec` does not rest on these checks. -/

namespace Sys2Proof

/-- A whole management write transfer carries at least the item number, its first data byte (R162). -/
def WellFormed.writeTransfer (frame : Framing) (bytes : List Byte) : Bool := !frame.start.isSome || !frame.stop || !bytes.isEmpty

/-- A whole read transfer takes at least one byte: the master ends it by leaving a byte unacknowledged (R163). -/
def WellFormed.readTransfer (frame : Framing) (count : Nat) : Bool := !frame.start.isSome || !frame.stop || decide (0 < count)

/-- A command that can arrive at the block. -/
def Instr.wellFormed : Instr → Bool
  | .registerWrite frame bytes => WellFormed.writeTransfer frame bytes
  | .faultRead frame count => WellFormed.readTransfer frame count
  | .hostWrite _ _ _ _ => true
  | .hostRead _ _ => true
  | .refusalPulseEnd => true
  | .holdExpired => true
  | .txnRise => true
  | .release => true
  | .abtRise => true
  | .openTimerExpiry => true
  | .memoryClaim _ => true
  | .grant => true
  | .hostAccessCompletion => true
  | .logWriterTake => true
  | .imageWordCompletion => true
  | .applyTake => true
  | .applyChoice => true
  | .homeWriteCompletion => true
  | .pendingWriteStart => true
  | .anchorWordCompletion => true
  | .formatClearCompletion => true
  | .formatSecondWriteStart => true
  | .powerOn _ => true
  | .resetPin _ => true
  | .rstRise => true
  | .powerResume _ => true
  | .pfwFall => true
  | .anchorReadCompletion => true
  | .scanReadCompletion => true
  | .replayWriteCompletion => true
  | .configWrite _ _ => true
  | .abort => true
  | .applyGuards => true
  | .reloadGuardEdit => true
  | .format => true
  | .clearFaults => true
  | .clearCounters => true
  | .softReset _ => true
  | .unknownCommand => true
  | .replayReadCompletion => true
  | .hostCycleEnd => true

end Sys2Proof
end

