-- ==== Sys2Proof/Tests/Slice0.lean ====
section
/-! SUPPORT. Tests/Slice0.lean: small tests of single commands, the smoke of WellFormed, and for each statement that has hypotheses
a state and operands that meet them, clause by clause. -/

namespace Sys2Proof.Tests
open Sys2Proof Sys2Proof.Machine

/-! ## States the tests share -/

/-- A live guard table: 5000 to 5001 LOCKED with a reset pulse, 6000 to 6001 JOURNALED. -/
def guards : GuardTable := (noGuards.set 0 ⟨5000, 5001, .locked, .dropAndReset⟩).set 1 ⟨6000, 6001, .journaled, .drop⟩

/-- A part in RUN with a log region of 1,024 words at 1,024. -/
def run : State := { State.reset with
  host := { State.reset.host with guards := guards }
  anchor := { State.reset.anchor with image := ⟨1024, 1024, 0, 1, guards⟩, generation := 1, lastCopy := some .a }
  start := { State.reset.start with part := .run, phase := .done, drivesHrst := false } }

/-- The same in another part state. -/
def inPart (s : State) (p : PartState) : State := { s with start := { s.start with part := p } }

/-- The same with the context in another state. -/
def inContext (s : State) (c : Context) : State :=
  { s with txn := { s.txn with context := c, openTimer := ⟨4, 500, true⟩ } }

def lowLane : Lanes := ⟨false, true⟩
def highLane : Lanes := ⟨true, false⟩

/-- An entry of word 200, and one of word 201. -/
def entry200 : Entry := ⟨200, 0x1200, highLane, false⟩
def entry201 : Entry := ⟨201, 0x5678, bothLanes, false⟩

/-- A committed bank of two entries with its image at offset 0. -/
def group (st : BankState) : Bank := ⟨st, some 1, [entry200, entry201], some ⟨0, 14⟩, none⟩

/-- A bank in CAPTURE with the entry of word 200. -/
def capture200 : Bank := ⟨.capture, none, [entry200], none, none⟩

/-- A part in RUN with a transaction open on Bank 0. -/
def opened : State := inContext { run with bank0 := capture200 } (.opened .b0)

/-- A write held awaiting what is named. -/
def held (w : Awaits) : HeldWrite := ⟨200, 0xBEEF, bothLanes, .plain, none, w⟩

/-- The state with a write held. -/
def holding (s : State) (w : Awaits) : State :=
  { s with
    host := { s.host with slot := some (held w), holdTimer := ⟨7, true⟩ }
    mgmt := { s.mgmt with config := { s.mgmt.config with holdLimit := 10 } } }

/-- The state with an access in flight. -/
def flying (s : State) (who : Claimant) (x : Access) : State := { s with port := { s.port with inFlight := some ⟨who, x⟩ } }

/-- A word write of both lanes. -/
def put (a : Addr) (w : Word) : Access := ⟨true, a, bothLanes, w⟩

/-- The state with a command due. -/
def due (s : State) (c : Byte) : State := { s with mgmt := { s.mgmt with command := { s.mgmt.command with due := some c } } }

/-- An anchor write in flight with 63 words completed. -/
def lastWord (covers0 : Bool) (carried : Option Carried) : AnchorWrite :=
  ⟨.b, 2, copySnapshot run.anchor.image 2, 63, covers0, false, carried⟩

/-- The state with an anchor write in flight, its next word at the memory port. -/
def writing (s : State) (w : AnchorWrite) : State :=
  flying { s with anchor := { s.anchor with write := some w } } .anchor (put 127 0x1111)

/-- A part in FORMATTING, in a phase. -/
def formatting (phase : FormatPhase) : State :=
  { inPart run .formatting with anchor := { run.anchor with format := some ⟨⟨4096, 2048⟩, some ⟨1024, 1024⟩, phase⟩ } }

/-- The state a command leads to, or the state itself where it stops. -/
def after (c : Instr) (s : State) : State :=
  match exec c s with
  | .next t => t
  | .fault _ => s
  | .refused _ => s

/-! ## WellFormed -/

theorem test_write_transfer_needs_its_item : Instr.wellFormed (.registerWrite ⟨some 0x34, true⟩ []) = false := by decide
theorem test_read_transfer_takes_a_byte : Instr.wellFormed (.faultRead ⟨some 0x34, true⟩ 0) = false := by decide
theorem test_well_formed_transfers :
    Instr.wellFormed (.registerWrite ⟨some 0x34, true⟩ [0x06]) = true ∧ Instr.wellFormed (.faultRead ⟨some 0x34, true⟩ 1) = true ∧
    Instr.wellFormed (.registerWrite ⟨none, true⟩ []) = true := by decide
/-- R162, R163: after every reset a read gives IDENT, FFh past its end; the item number written selects another item. -/
theorem test_read_of_ident : (after (.faultRead ⟨some 0x34, true⟩ 4) run).mgmt.readData = [0x42, 0x10, 0x01, 0xFF] := by decide
theorem test_write_then_read :
    (after (.faultRead ⟨some 0x34, true⟩ 1) (after (.registerWrite ⟨some 0x34, false⟩ [0x01]) run)).mgmt.readData = [0x03] := by decide
theorem test_no_word_spells_a_command : decodeTableWord 16 0 = none := by decide

/-! ## Records -/

/-- The check value of R85. -/
theorem test_crc_check_value : crcWords [0x0000] = 0x1D0F := by decide +kernel

/-- R83: an ENTRY record of the upper lane of word 12345h. -/
theorem test_entry_record : entryRecord ⟨0x12345, 0xAB00, ⟨true, false⟩, false⟩ = [0x5801, 0x2345, 0xAB00] := by decide

/-- R83: a BEGIN and a COMMIT record. -/
theorem test_begin_and_commit_records :
    beginRecord 0x00010002 3 = [0xA000, 0x0001, 0x0002, 3] ∧ commitRecord 0x00010002 0x7777 = [0xC000, 0x0001, 0x0002, 0x7777] := by
  decide

/-- R114, R115: the words of a LOCKED, DROP_AND_RESET guard entry. -/
theorem test_guard_words : guardWords ⟨0x12345, 0xABCDE, .locked, .dropAndReset⟩ = [0x0001, 0x2345, 0xA00A, 0xBCDE] := by decide

/-- R117: generation 0 is newer than FFFFFFFFh and not the other way about. -/
theorem test_generation_order : newerGeneration 0 0xFFFFFFFF = true ∧ newerGeneration 0xFFFFFFFF 0 = false := by decide

/-- R133: a write of the lower lane leaves the upper one. -/
theorem test_lane_write : readWord (writeLanes (writeLanes [] 9 bothLanes 0x1234) 9 lowLane 0xABCD) 9 = 0x12CD := by decide

/-! ## Commands -/

theorem test_write_to_the_log_is_refused :
    ((after (.hostWrite 1024 1 bothLanes false) run).mgmt.queue.map (·.cause)) = [some .log] := by decide
theorem test_locked_write_starts_a_pulse : (after (.hostWrite 5001 1 bothLanes false) run).host.pulse = some 100 := by decide
theorem test_read_above_memory : (after (.hostRead 0x20000 bothLanes) run).host.driven = some 0xFFFF := by decide
theorem test_read_takes_lanes_of_the_bank :
    (after (.hostRead 200 bothLanes) opened).host.access = some (.read bothLanes 0x1200 lowLane) := by decide
theorem test_rise_opens_bank_0 : (after .txnRise run).txn.context = .opened .b0 := by decide
theorem test_release_takes_the_sequence : (after .release opened).bank0.seq = some 1 := by decide
theorem test_expiry_reports_at_the_limit :
    ((after .holdExpired (holding run .holdCondition)).mgmt.queue.map (·.addr)) = [some 200] := by decide
theorem test_host_wins_below_the_limit :
    (after .grant { run with port := { run.port with
      waiting := ⟨some (put 3 4), none, some (put 5 6), none, none⟩ } }).port.burst = 1 := by decide
theorem test_log_take_moves_the_head : (after .logWriterTake { run with bank0 := group .logWait }).log.head = 14 := by decide
theorem test_home_write_marks_its_entry :
    (after .homeWriteCompletion (flying { run with bank0 := group .applying, apply := ⟨some .b0, some 1⟩ } .apply (put 201 0x5678))).bank0.entries.map
      (·.applied) = [false, true] := by decide
theorem test_halt_takes_no_command : (after .clearFaults (due (inPart run .halted) 0x05)).mgmt.status = ⟨.idle, 0, none⟩ := by decide
theorem test_reset_pin_counts : (after (.resetPin ⟨1, 2⟩) run).start.report.resets = 1 := by decide
theorem test_target_follows_the_straps : (after (.resetPin ⟨1, 2⟩) run).targetAddress = 0x36 := by decide
theorem test_burst_limit_zero_is_refused :
    (after (.configWrite ⟨some 0x34, true⟩ [0, 1, 0, 2, 0, 3]) run).mgmt.acks =
      [true, true, true, true, true, true, false, false] := by decide

/-- R161: a reset inside a transfer: the byte after it is not acknowledged. -/
theorem test_reset_abandons_a_transfer :
    (after (.registerWrite ⟨none, true⟩ [5])
      (after (.resetPin ⟨0, 0⟩) (after (.registerWrite ⟨some 0x34, false⟩ [0x06, 1]) run))).mgmt.acks = [false] := by decide

/-- R171: the command byte and the STOP in two commands: nothing is due before the transfer ends. -/
theorem test_command_is_due_at_the_end_of_its_transfer :
    let t := after (.registerWrite ⟨some 0x34, false⟩ [0x0C, 0x05]) run
    t.mgmt.command.due = none ∧ (after (.registerWrite ⟨none, true⟩ [0]) t).mgmt.command.due = some 0x05 := by decide

/-- R2, R135: a write that waits behind a PASS write is not taken in the completion; the host port's next claim takes it. -/
theorem test_waiting_cycle_is_taken_after_the_completion :
    let t := after .hostAccessCompletion (flying { run with
      host := { run.host with access := some .passWrite }
      pins := { run.pins with host := writeLines 300 7 bothLanes false } } .host (put 200 9))
    t.port.waiting.host = none ∧ (after (.memoryClaim .host) t).port.waiting.host = some (put 300 7) := by decide

/-! ## States and operands that meet the hypotheses of the statements -/

theorem witness_StepTakesTheFrontCommand : ({ run with pending := [.grant, .txnRise] } : State).pending = .grant :: [.txnRise] := rfl

/-- The timers and the pulse two microseconds short of their ends, and one: then each falls due. -/
theorem witness_EmptyQueueAdvancesTheTimebase :
    (inPart run .halted).pending = [] ∧ (inPart run .halted).start.part = .halted ∧
    run.host.holdTimer.running = false ∧ run.txn.openTimer.running = false ∧
    let s := fun left : Nat => { opened with
      host := { opened.host with pulse := some left, holdTimer := ⟨10 - left, true⟩ }
      txn := { opened.txn with openTimer := ⟨4, 1000 - left, true⟩ }
      mgmt := { opened.mgmt with config := ⟨5, 10, 8, 0xF⟩ } }
    ∀ left, (s left).pending = [] ∧ (s left).start.part ≠ .halted ∧ ¬(s left).nextCycleWaits ∧
      (s left).host.holdTimer.running = true ∧ (s left).txn.openTimer.running = true ∧ (s left).host.pulse = some left ∧
      (left = 1 → ((s left).advance 1).mgmt.config.holdLimit.toNat ≤ ((s left).advance 1).host.holdTimer.micros) ∧
      (left = 2 → ¬((s left).advance 1).mgmt.config.holdLimit.toNat ≤ ((s left).advance 1).host.holdTimer.micros) := by
  refine ⟨rfl, rfl, rfl, rfl, ?_⟩
  intro s left
  refine ⟨rfl, by simp [s, opened, inContext, run], fun h => h.2.1 rfl, rfl, rfl, rfl, ?_, ?_⟩ <;> rintro rfl <;> decide

/-- A word in no log region in force, for the tests that look at one. -/
theorem outside {s : State} {a : Addr} (h : s.inLog a = false) : ¬s.logRegionHas a := by
  rw [← inLog_iff, h]
  decide

/-- Both ends of a region and the words beside it, in RUN and in both regions of a FORMAT. -/
theorem witness_WriteClassFollowsTheTestsInOrder :
    let inGuard := fun (a : Addr) (i : Fin 8) => (run.host.guards[i]).first ≤ a ∧ a ≤ (run.host.guards[i]).last
    131072 * 2 ^ run.port.msz.toNat ≤ (0x20000 : Addr).toNat ∧ (0x1FFFF : Addr).toNat < 131072 * 2 ^ run.port.msz.toNat ∧
    (127 : Addr).toNat < 128 ∧ run.logRegionHas 1024 ∧ run.logRegionHas 2047 ∧ ¬run.logRegionHas 2048 ∧ ¬run.logRegionHas 1023 ∧
    (formatting .clearing).logRegionHas 1024 ∧ (formatting .clearing).logRegionHas 6143 ∧
    ¬(formatting .clearing).logRegionHas 6144 ∧ ¬(inPart run .unformatted).logRegionHas 1024 ∧
    (inGuard 5001 0 ∧ ∀ j < (0 : Fin 8), ¬inGuard 5001 j) ∧ (inGuard 6000 1 ∧ ∀ j < (1 : Fin 8), ¬inGuard 6000 j) ∧
    ∀ i, ¬inGuard 128 i :=
  ⟨by decide, by decide, by decide, (inLog_iff _ _).mp rfl, (inLog_iff _ _).mp rfl, outside rfl, outside rfl, (inLog_iff _ _).mp rfl,
    (inLog_iff _ _).mp rfl, outside rfl, outside rfl, by decide, by decide, by decide⟩

theorem witness_WriteInVoidIsRefusedSilently :
    (inContext run (.voided .aborted)).hostTakes ∧ noLane lowLane = false ∧
    (inContext run (.voided .aborted)).txn.context = .voided .aborted :=
  ⟨⟨.inr (.inl rfl), rfl, rfl⟩, rfl, rfl⟩

/-- A word no bank holds, and a word a committed bank holds; a PLAIN and a JOURNALED write in SLOT_WAIT. -/
theorem witness_WriteIsPassedOrHeld :
    run.hostTakes ∧ noLane highLane = false ∧ run.txn.context = .idle ∧ (run.classify 128).cls = .plain ∧ ¬run.heldWord 128 ∧
    let s := { run with bank0 := group .applying }
    s.hostTakes ∧ s.txn.context = .idle ∧ (s.classify 200).cls = .plain ∧ s.heldWord 200 ∧
    let u := inContext run .slotWait
    u.hostTakes ∧ u.txn.context = .slotWait ∧ (u.classify 200).cls = .plain ∧ (u.classify 6000).cls = .journaled := by
  refine ⟨⟨.inr (.inl rfl), rfl, rfl⟩, rfl, rfl, by decide, ?_, ⟨.inr (.inl rfl), rfl, rfl⟩, rfl, by decide,
    ⟨.b0, rfl, entry200, by decide, rfl⟩, ⟨.inr (.inl rfl), rfl, rfl⟩, rfl, by decide, by decide⟩
  rintro ⟨b, hb, -⟩
  cases b <;> exact absurd hb (by decide)

/-- A bank of 256 entries, of the words from 300 on. -/
def fullBank : Bank := ⟨.capture, none, (List.range 256).map fun i => ⟨BitVec.ofNat 20 (300 + i), 1, bothLanes, false⟩, none, none⟩

theorem witness_WriteInOpenMakesAnEntryOrOverflows :
    opened.hostTakes ∧ opened.txn.context = .opened .b0 ∧ (opened.classify 201).cls = .plain ∧
    (∀ e ∈ (opened.bank .b0).entries, e.addr ≠ 201) ∧ (opened.bank .b0).entries.length < 256 ∧
    let s := { opened with bank0 := fullBank }
    (s.bank .b0).entries.length = 256 ∧ ∀ e ∈ (s.bank .b0).entries, e.addr ≠ 201 := by
  refine ⟨⟨.inr (.inl rfl), rfl, rfl⟩, rfl, by decide, by decide, by decide, by simp [State.bank, fullBank], ?_⟩
  intro e he
  simp only [State.bank, fullBank, List.mem_map, List.mem_range] at he
  obtain ⟨i, hi, rfl⟩ := he
  intro h
  have h := congrArg BitVec.toNat h
  simp only [BitVec.toNat_ofNat, show (201 : Addr).toNat = 201 from rfl] at h
  omega

theorem witness_WriteInOpenMergesIntoTheEntry :
    opened.hostTakes ∧ opened.txn.context = .opened .b0 ∧ (opened.classify 200).cls = .plain ∧
    ((opened.bank .b0).entries.map (·.addr)).Nodup ∧ (opened.bank .b0).entries[0]? = some entry200 ∧ entry200.addr = 200 :=
  ⟨⟨.inr (.inl rfl), rfl, rfl⟩, rfl, by decide, by decide, rfl, rfl⟩

theorem witness_RefusedWriteOffersItsRecord :
    run.mgmt.queue.length < 16 ∧
    16 ≤ ({ run.mgmt with queue := List.replicate 16 ⟨.accessRefused, some .log, some 1024, none, none, 0⟩ } : ManagementPort).queue.length ∧
    run.hostTakes ∧ opened.hostTakes ∧ (inContext run .slotWait).hostTakes ∧ (∀ r, run.txn.context ≠ .voided r) ∧
    run.classify 0x20000 = ⟨.range, none, .drop⟩ ∧ run.classify 127 = ⟨.anchor, none, .drop⟩ ∧
    run.classify 1024 = ⟨.log, none, .drop⟩ ∧ run.classify 6001 = ⟨.journaled, some 1, .drop⟩ ∧
    run.classify 5000 = ⟨.locked, some 0, .dropAndReset⟩ ∧ opened.classify 5000 = ⟨.locked, some 0, .dropAndReset⟩ ∧
    (inContext run .slotWait).classify 5000 = ⟨.locked, some 0, .dropAndReset⟩ :=
  ⟨by decide, by simp, ⟨.inr (.inl rfl), rfl, rfl⟩, ⟨.inr (.inl rfl), rfl, rfl⟩, ⟨.inr (.inl rfl), rfl, rfl⟩, (by intro r h; cases h), by decide, by decide, by decide,
    by decide, by decide, by decide, by decide⟩

theorem witness_ReadOutsideHomeMemory :
    run.hostTakes ∧ noLane lowLane = false ∧ 131072 * 2 ^ run.port.msz.toNat ≤ (0x20000 : Addr).toNat ∧
    (127 : Addr).toNat < 131072 * 2 ^ run.port.msz.toNat ∧ (127 : Addr).toNat < 128 ∧ run.logRegionHas 2047 :=
  ⟨⟨.inr (.inl rfl), rfl, rfl⟩, rfl, by decide, by decide, by decide, (inLog_iff _ _).mp rfl⟩

/-- A word whose entry holds every lane asked for, and one whose entry does not. -/
theorem witness_ForwardedReadTakesItsLanes :
    opened.hostTakes ∧ 128 ≤ (200 : Addr).toNat ∧ (200 : Addr).toNat < 131072 * 2 ^ opened.port.msz.toNat ∧
    ¬opened.logRegionHas 200 ∧
    opened.sources 200 = [entry200] ∧ entry200.lanes = highLane :=
  ⟨⟨.inr (.inl rfl), rfl, rfl⟩, by decide, by decide, outside rfl, by decide, rfl⟩

/-- Two committed banks, Bank 1 the newer, and a transaction open on Bank 0. -/
theorem witness_SourcesAreNewestFirst :
    let s := { run with bank0 := group .applyWait, bank1 := { group .logWait with seq := some 2, image := none } }
    s.banksSound ∧ s.contextSound ∧ (s.bank .b1).state.committed = true ∧ (s.bank .b0).state.committed = true ∧
    (s.bank .b0).rank < (s.bank .b1).rank ∧ entry201 ∈ (s.bank .b1).entries ∧ entry201.applied = false ∧
    opened.banksSound ∧ opened.contextSound ∧ entry200 ∈ (opened.bank .b0).entries := by
  refine ⟨?_, ?_, rfl, rfl, by decide, by decide, rfl, ?_, ?_, by decide⟩
  · intro b
    cases b
    · exact ⟨⟨by decide, by decide, by unfold Entry.sound; decide⟩, ⟨1, rfl, by decide⟩, by decide, by decide, ⟨_, rfl, rfl⟩, rfl⟩
    · exact ⟨⟨by decide, by decide, by unfold Entry.sound; decide⟩, ⟨2, rfl, by decide⟩, by decide, by decide, rfl, rfl⟩
  · intro b
    cases b <;> decide
  · intro b
    cases b
    · exact ⟨⟨by decide, by decide, by unfold Entry.sound; decide⟩, rfl, rfl, rfl, rfl⟩
    · exact ⟨⟨by decide, by decide, by unfold Entry.sound; decide⟩, rfl, rfl, rfl, rfl⟩
  · intro b
    cases b <;> decide

theorem witness_CapturedWriteIsReadBack :
    opened.hostTakes ∧ noLane lowLane = false ∧ opened.txn.context = .opened .b0 ∧ (opened.classify 200).cls = .plain ∧
    (∃ e ∈ (opened.bank .b0).entries, e.addr = 200) ∧ (opened.bank .b0).entries.length < 256 :=
  ⟨⟨.inr (.inl rfl), rfl, rfl⟩, rfl, rfl, by decide, ⟨entry200, by decide, rfl⟩, by decide⟩

/-- A write and a read that wait on the bus of a port that takes cycles; a part state, an access and a held write that hold one. -/
theorem witness_CyclesAreHeldTakenAndEnded :
    (let s := fun lines => { run with pins := { run.pins with host := lines } }
     (s (writeLines 300 7 bothLanes false)).hostTakes ∧ (s (writeLines 300 7 bothLanes false)).host.cycleTaken = false ∧
     (s (writeLines 300 7 bothLanes false)).host.driven = none ∧ (s (writeLines 300 7 bothLanes false)).port.waiting.host = none ∧
     (s (writeLines 300 7 bothLanes false)).port.inFlight = none ∧ (s (writeLines 300 7 bothLanes false)).pending = [] ∧
     (s (readLines 300 lowLane 9)).pins.host = readLines 300 lowLane (s (readLines 300 lowLane 9)).pins.host.data) ∧
    ¬(inPart run .recovery).controllerWorks ∧ ({ run with host := { run.host with access := some .passWrite } } : State).host.access ≠ none ∧
    (holding run .holdCondition).host.slot ≠ none ∧ run.hostTakes ∧ (inPart run .unformatted).hostTakes := by
  refine ⟨⟨⟨.inr (.inl rfl), rfl, rfl⟩, rfl, rfl, rfl, rfl, rfl, rfl⟩, ?_, by decide, by decide, ⟨.inr (.inl rfl), rfl, rfl⟩,
    ⟨.inl rfl, rfl, rfl⟩⟩
  rintro (h | h | h) <;> cases h

theorem witness_HostWriteLandsAndCompletes :
    let s := flying run .host ⟨true, 128, lowLane, 0x1234⟩
    memoryWf s.mem = true ∧ s.port.inFlight = some ⟨.host, ⟨true, 128, lowLane, 0x1234⟩⟩ ∧
    ({ s with host := { s.host with access := some .passWrite } } : State).host.access = some .passWrite ∧
    (holding s .port).host.access = none ∧ (holding s .port).host.slot = some (held .port) ∧ (held .port).awaits = .port :=
  ⟨rfl, rfl, rfl, rfl, rfl, rfl⟩

/-- A read whose cycle is live, and one whose cycle has ended. -/
theorem witness_HostReadCompletes :
    let s := flying (after (.hostRead 200 bothLanes) opened) .host ⟨false, 200, lowLane, 0⟩
    s.port.inFlight = some ⟨.host, ⟨false, 200, lowLane, 0⟩⟩ ∧ s.host.access = some (.read bothLanes 0x1200 lowLane) ∧
    (s.pins.host.ce = true ∧ s.pins.host.oe = true ∧ s.host.cycleTaken = true) ∧
    (after .hostCycleEnd s).port.inFlight = s.port.inFlight ∧ (after .hostCycleEnd s).host.access = s.host.access ∧
    (after .hostCycleEnd s).pins.host.ce = false := by
  decide

theorem witness_TimersOfTheHostPort :
    (holding run .holdCondition).controllerWorks ∧ (holding run .holdCondition).host.slot = some (held .holdCondition) ∧
    (holding run .holdCondition).host.holdTimer.running = true ∧ (holding run .holdCondition).mgmt.config.holdLimit ≠ 0 ∧
    (holding (inContext run .slotWait) .bank).controllerWorks ∧
    (holding (inContext run .slotWait) .bank).host.slot = some (held .bank) ∧
    (holding (inContext run .slotWait) .bank).txn.context = .slotWait ∧ run.mgmt.config.holdLimit = 0 ∧
    ({ run with host := { run.host with pulse := some 100 } } : State).host.pulse = some 100 ∧ run.start.part ≠ .halted ∧
    (inPart run .halted).start.part = .halted ∧ run.host.pulse = none :=
  ⟨.inr (.inl rfl), rfl, rfl, by decide, .inr (.inl rfl), rfl, rfl, rfl, rfl, by decide, rfl, rfl⟩

/-- Bank 0 FREE, Bank 1 alone FREE, no bank FREE, FORMATTING, UNFORMATTED, each with and without a pulse. -/
theorem witness_RiseOfTxnBeginsATransaction :
    run.txn.context = .idle ∧ run.start.part = .run ∧ (run.bank .b0).state = .free ∧ run.host.pulse = none ∧
    ({ run with bank0 := group .retiring } : State).bank0.state ≠ .free ∧ run.bank1.state = .free ∧
    (let s := { run with bank0 := group .retiring, bank1 := group .logWait }
     s.start.part = .run ∧ s.bank0.state ≠ .free ∧ s.bank1.state ≠ .free) ∧
    (inPart run .formatting).start.part = .formatting ∧ (inPart run .unformatted).start.part = .unformatted ∧
    ({ run with host := { run.host with pulse := some 1 } } : State).host.pulse ≠ none ∧
    ∀ h, run.host.slot = some h → h.awaits ≠ .bank :=
  ⟨rfl, rfl, rfl, rfl, by decide, rfl, ⟨rfl, by decide, by decide⟩, rfl, rfl, by decide, (by intro h e; cases e)⟩

/-- The log is exactly as large as the image. -/
theorem witness_ReleaseIsAccepted :
    opened.controllerWorks ∧ opened.txn.context = .opened .b0 ∧ 0 < (opened.bank .b0).entries.length ∧
    opened.txn.nextSeq ≠ 0 ∧
    let s := { opened with anchor := { opened.anchor with image := { opened.anchor.image with logSize := 11 } } }
    3 * (s.bank .b0).entries.length + 8 ≤ s.anchor.image.logSize :=
  ⟨.inr (.inl rfl), rfl, by decide, by decide, by decide⟩

theorem witness_ReleaseThatCommitsNothing :
    opened.controllerWorks ∧ ({ opened with bank0 := Bank.capturing } : State).bank0.entries.length = 0 ∧
    (let s := { opened with anchor := { opened.anchor with image := { opened.anchor.image with logSize := 10 } } }
     s.anchor.image.logSize < 3 * (s.bank .b0).entries.length + 8) ∧
    ({ opened with txn := { opened.txn with nextSeq := 0 } } : State).txn.nextSeq = 0 ∧
    (inContext run .slotWait).controllerWorks ∧ (inContext run .slotWait).txn.context = .slotWait ∧
    (∀ h, (inContext run .slotWait).host.slot = some h → h.awaits ≠ .bank) ∧
    (∀ h, (holding (inContext run .slotWait) .holdCondition).host.slot = some h → h.awaits ≠ .bank) ∧
    (holding (inContext run .slotWait) .bank).host.slot = some (held .bank) ∧ (held .bank).awaits = .bank := by
  refine ⟨.inr (.inl rfl), rfl, by decide, rfl, .inr (.inl rfl), rfl, ?_, ?_, rfl, rfl⟩
  · intro h e; cases e
  · intro h e; injection e with e; subst e; decide

theorem witness_ReleaseOfAVoidTransaction :
    (inContext (inPart run .unformatted) (.voided .unformatted)).controllerWorks ∧
    (inContext (inPart run .unformatted) (.voided .unformatted)).txn.context = .voided .unformatted := ⟨.inl rfl, rfl⟩

theorem witness_AbtRiseVoidsTheTransaction :
    opened.controllerWorks ∧ opened.txn.context = .opened .b0 ∧ (inContext run .slotWait).txn.context = .slotWait ∧
    (∀ h, (inContext run .slotWait).host.slot = some h → h.awaits ≠ .bank) ∧
    (holding (inContext run .slotWait) .bank).host.slot = some (held .bank) ∧ (held .bank).awaits = .bank ∧
    run.txn.context = .idle ∧ (inContext run (.voided .expired)).txn.context = .voided .expired :=
  ⟨.inr (.inl rfl), rfl, rfl, (by intro h e; cases e), rfl, rfl, rfl, rfl⟩

theorem witness_OpenTimerExpiryVoidsTheTransaction :
    let limit := fun s : State => { s with mgmt := { s.mgmt with config := { s.mgmt.config with openLimit := 5 } } }
    (limit opened).controllerWorks ∧ (limit opened).txn.openTimer.running = true ∧ (limit opened).mgmt.config.openLimit ≠ 0 ∧
    (limit opened).txn.context = .opened .b0 ∧ (limit (inContext run .slotWait)).txn.context = .slotWait ∧
    (∀ h, (limit (inContext run .slotWait)).host.slot = some h → h.awaits ≠ .bank) ∧
    (holding (limit (inContext run .slotWait)) .bank).host.slot = some (held .bank) ∧ opened.mgmt.config.openLimit = 0 ∧
    run.txn.openTimer.running = false :=
  ⟨.inr (.inl rfl), rfl, by decide, rfl, rfl, (by intro h e; cases e), rfl, rfl, rfl⟩

theorem witness_OutputLinesFollowTheState :
    run.port.inFlight = none ∧ (flying run .log (put 1024 7)).port.inFlight = some ⟨.log, ⟨true, 1024, bothLanes, 7⟩⟩ ∧
    (flying run .host ⟨false, 300, lowLane, 0⟩).port.inFlight = some ⟨.host, ⟨false, 300, lowLane, 0⟩⟩ := ⟨rfl, rfl, rfl⟩

theorem no_claims {s : State} (who : Claimant) (hw : s.port.waiting.get who = none) (hf : s.port.inFlight = none) : ¬s.claims who := by
  rintro (h | ⟨f, h, -⟩)
  · exact h hw
  · rw [hf] at h; cases h

/-- A claim in flight and one waiting; RST# low; each engine with nothing to claim, and with a claim to make. -/
theorem witness_ClaimsOfTheEngines :
    (flying run .log (put 1024 7)).claims .log ∧
    ({ run with port := { run.port with waiting := ⟨some (put 3 4), none, none, none, none⟩ } } : State).claims .host ∧
    ¬run.nextCycleWaits ∧ (after (.resetPin ⟨0, 0⟩) run).start.part = .startup ∧ (after (.resetPin ⟨0, 0⟩) run).pins.rstHigh = false ∧
    run.log.job = none ∧ run.anchor.write = none ∧ run.start.phase = .done ∧ run.start.part ≠ .startup ∧ run.start.part ≠ .recovery ∧
    ({ inPart run .recovery with start := { (inPart run .recovery).start with phase := .closing } } : State).start.phase = .closing ∧
    let s := { run with bank0 := group .logging, log := ⟨some ⟨.b0, 13⟩, 14, 14, 0xFFFF⟩ }
    ¬s.claims .log ∧ s.start.part = .run ∧ s.log.job = some ⟨.b0, 13⟩ ∧
    (s.bank .b0).seq = some 1 ∧ (s.bank .b0).image = some ⟨0, 14⟩ ∧
    let u : State := { run with anchor := { run.anchor with write := some (lastWord false none) } }
    ¬u.claims .anchor ∧ u.anchor.write = some (lastWord false none) ∧
    let v := State.reset
    ¬v.claims .startup ∧ v.start.part = .startup ∧ v.pins.rstHigh = true ∧ v.start.phase = .anchors [] :=
  ⟨.inr ⟨_, rfl, rfl⟩, .inl (by decide), fun h => h.2.1 rfl, rfl, rfl, rfl, rfl, rfl, by decide, by decide, rfl,
    no_claims _ rfl rfl, rfl, rfl, rfl, rfl, no_claims _ rfl rfl,
    rfl, no_claims _ rfl rfl, rfl, rfl, rfl⟩

/-- Claims that wait together, the host at its burst limit and one below it, and a claim beyond the memory. -/
theorem witness_GrantGoesToTheWinner :
    let claims : Claims := ⟨some (put 3 4), none, some (put 5 6), some (put 7 8), none⟩
    let s := fun burst => { run with port := { run.port with waiting := claims, burst := burst } }
    (s 7).port.inFlight = none ∧ (s 7).port.halt = false ∧ (s 7).wins .host ∧ (s 8).wins .log ∧
    (s 8).port.waiting.get .log = some (put 5 6) ∧ (5 : Addr).toNat < (s 8).memSize ∧
    (let u : State := { run with port := { run.port with waiting := ⟨none, none, none, some (put 0x20000 1), none⟩ } }
     u.wins .apply ∧ u.memSize ≤ (0x20000 : Addr).toNat) ∧
    (flying run .log (put 1 2)).port.inFlight ≠ none ∧ (∀ who, run.port.waiting.get who = none) := by
  refine ⟨rfl, rfl, ?_, ?_, rfl, by decide, ⟨?_, by decide⟩, by decide, by intro who; cases who <;> rfl⟩
  · unfold State.wins; decide
  · unfold State.wins; decide
  · unfold State.wins; decide

/-- A log with exactly the room the image needs, and one word less. -/
theorem witness_LogWriterTakesTheOldestBank :
    let s := fun used => { run with
      bank0 := group .logWait, bank1 := { group .logWait with seq := some 2 }, log := { run.log with used := used } }
    (s 0).start.part = .run ∧ (s 0).log.job = none ∧ ((s 0).bank .b0).state = .logWait ∧
    ((s 0).bank .b0).rank < ((s 0).bank .b1).rank ∧ (s 1010).log.used + 14 ≤ (s 1010).anchor.image.logSize ∧
    (s 1011).anchor.image.logSize < (s 1011).log.used + 14 := by
  refine ⟨rfl, rfl, rfl, by decide, by decide, by decide⟩

theorem witness_ImageWordLands :
    let s := fun n => flying { run with bank0 := group .logging, log := ⟨some ⟨.b0, n⟩, 14, 14, 0xFFFF⟩ } .log (put 1037 0x4321)
    memoryWf (s 13).mem = true ∧ (s 13).port.inFlight = some ⟨.log, ⟨true, 1037, ⟨true, true⟩, 0x4321⟩⟩ ∧
    (s 13).log.job = some ⟨.b0, 13⟩ ∧ (s 13).start.part = .run ∧ 13 + 1 = 3 * ((s 13).bank .b0).entries.length + 8 ∧
    12 + 1 ≠ 3 * ((s 12).bank .b0).entries.length + 8 ∧ (inPart (s 13) .halted).start.part = .halted :=
  ⟨rfl, rfl, rfl, rfl, rfl, by decide, rfl⟩

theorem witness_ApplyEngineTakesTheOldestBank :
    let s := { run with bank0 := group .applyWait, bank1 := { group .applyWait with seq := some 2 } }
    s.start.part = .run ∧ s.apply.bank = none ∧ (s.bank .b0).state = .applyWait ∧ (s.bank .b0).rank < (s.bank .b1).rank ∧
    (∀ h, s.host.slot = some h → h.awaits ≠ .holdCondition) ∧
    (holding s .holdCondition).host.slot = some (held .holdCondition) ∧ (held .holdCondition).awaits = .holdCondition :=
  ⟨rfl, rfl, rfl, by decide, (by intro h e; cases e), rfl, rfl⟩

theorem witness_ApplyEngineChoosesAnEntry :
    let s := fun target => { run with bank0 := { group .applying with target := target }, apply := ⟨some .b0, none⟩ }
    (s none).start.part = .run ∧ (s none).apply = ⟨some .b0, none⟩ ∧ (s none).port.waiting.apply = none ∧
    (s none).port.inFlight = none ∧ ((s (some 1)).bank .b0).target = some 1 ∧
    ((s (some 1)).bank .b0).entries[1]? = some entry201 ∧ ((s none).bank .b0).target = none ∧
    firstUnapplied ((s none).bank .b0).entries (fun _ => True) 0 entry200 :=
  ⟨rfl, rfl, rfl, rfl, rfl, rfl, rfl, rfl, trivial, rfl, by intro j hj; omega⟩

/-- One entry left unapplied, and two. -/
theorem witness_HomeWriteLands :
    let k := { group .applying with entries := [{ entry200 with applied := true }, entry201] }
    let s := fun bank => flying { run with bank0 := bank, apply := ⟨some .b0, some 1⟩ } .apply (put 201 0x5678)
    memoryWf (s k).mem = true ∧ (s k).port.inFlight = some ⟨.apply, ⟨true, 201, bothLanes, 0x5678⟩⟩ ∧
    (s k).apply = ⟨some .b0, some 1⟩ ∧ ((s k).bank .b0).entries[1]? = some entry201 ∧ (s k).start.part = .run ∧
    ((s k).bank .b0).appliedCount + 1 = ((s k).bank .b0).entries.length ∧ ((s k).bank .b0).image = some ⟨0, 14⟩ ∧
    ((s k).bank .b0).seq = some 1 ∧ (s k).anchor.write = none ∧
    ((s (group .applying)).bank .b0).appliedCount + 1 < ((s (group .applying)).bank .b0).entries.length :=
  ⟨rfl, rfl, rfl, rfl, rfl, rfl, rfl, rfl, rfl, by decide⟩

theorem witness_AnchorWriteStarts :
    let s := { run with anchor := { run.anchor with pending := true, guardsDue := true }, bank1 := group .retiring }
    s.start.part = .run ∧ s.anchor.pending = true ∧ s.anchor.write = none := ⟨rfl, rfl, rfl⟩

theorem witness_AnchorWordLands :
    let s := fun covers0 carried => writing { run with bank0 := group .retiring } (lastWord covers0 carried)
    memoryWf (s true none).mem = true ∧ (s true none).anchor.write = some (lastWord true none) ∧
    (s true none).port.inFlight = some ⟨.anchor, ⟨true, 127, ⟨true, true⟩, 0x1111⟩⟩ ∧ (s true none).start.part = .run ∧
    (lastWord true none).completed = 63 ∧ (lastWord false (some .applyGuards)).carried ≠ some .format ∧
    (s true none).txn.context ≠ .slotWait ∧ (∀ h, (s true none).host.slot = some h → h.awaits ≠ .holdCondition) ∧
    (s true none).bank0.state = .retiring ∧ ({ lastWord true none with completed := 62 } : AnchorWrite).completed ≠ 63 ∧
    (inPart (s true none) .halted).start.part = .halted :=
  ⟨rfl, rfl, rfl, rfl, rfl, by decide, by decide, (by intro h e; cases e), rfl, by decide, rfl⟩

/-- The write covers Bank 0, Bank 1, both or none; a write waits in each of the three ways, or none. -/
theorem witness_FreedBankServesWhatWaits :
    let s := fun (covers0 covers1 : Bool) (context : Context) (slot : Option HeldWrite) =>
      let k := fun q : DWord => { group .retiring with seq := some q }
      let t := inContext { run with bank0 := k 1, bank1 := k 2 } context
      writing { t with host := { t.host with slot := slot } }
        { lastWord true (some .applyGuards) with covers0 := covers0, covers1 := covers1 }
    (∀ covers0 covers1 context slot, let u := s covers0 covers1 context slot
      u.start.part = .run ∧ u.txn.context = context ∧ u.host.slot = slot ∧ u.bank0.state = .retiring ∧ u.bank1.state = .retiring ∧
      (∃ wr, u.anchor.write = some wr ∧ wr.completed = 63 ∧ wr.carried ≠ some .format ∧ wr.covers0 = covers0 ∧ wr.covers1 = covers1) ∧
      memoryWf u.mem = true ∧ u.port.inFlight = some ⟨.anchor, ⟨true, 127, ⟨true, true⟩, 0x1111⟩⟩) ∧
    (held .bank).awaits = .bank ∧ (held .holdCondition).awaits = .holdCondition ∧ (held .port).awaits = .port ∧
    Context.idle ≠ .slotWait ∧ BankState.retiring ≠ .free ∧
    (let k := group .retiring
     k.state.committed = true ∧ ∃ e ∈ k.entries, e.addr = (held .holdCondition).addr) ∧
    BankState.free.committed = false :=
  ⟨fun _ _ _ _ => ⟨rfl, rfl, rfl, rfl, rfl, ⟨_, rfl, rfl, show some Carried.applyGuards ≠ some .format by decide, rfl, rfl⟩, rfl, rfl⟩, rfl, rfl, rfl, by decide, by decide,
    ⟨rfl, entry200, by decide, rfl⟩, rfl⟩

theorem witness_FormatMakesTwoWrites :
    (let s := flying (formatting .clearing) .anchor (put 4096 0)
     memoryWf s.mem = true ∧ s.port.inFlight = some ⟨.anchor, ⟨true, 4096, ⟨true, true⟩, 0⟩⟩ ∧ s.anchor.write = none ∧
     s.anchor.format = some ⟨⟨4096, 2048⟩, some ⟨1024, 1024⟩, .clearing⟩ ∧ s.start.part = .formatting ∧
     (inPart s .halted).start.part = .halted) ∧
    let s := writing (formatting .firstWrite) (lastWord false (some .format))
    s.start.part = .formatting ∧ s.anchor.format = some ⟨⟨4096, 2048⟩, some ⟨1024, 1024⟩, .firstWrite⟩ ∧
    s.anchor.write = some (lastWord false (some .format)) ∧ (∀ h, s.host.slot = some h → h.awaits ≠ .holdCondition) ∧
    memoryWf s.mem = true ∧ s.port.inFlight = some ⟨.anchor, ⟨true, 127, ⟨true, true⟩, 0x1111⟩⟩ ∧
    (formatting .secondDue).anchor.write = none ∧
    (formatting .secondDue).anchor.format = some ⟨⟨4096, 2048⟩, some ⟨1024, 1024⟩, .secondDue⟩ :=
  ⟨⟨rfl, rfl, rfl, rfl, rfl, rfl⟩, rfl, rfl, rfl, (by intro h e; cases e), rfl, rfl, rfl, rfl⟩

/-- With an empty slot, and with a write held awaiting a bank. -/
theorem witness_FormatCompletes :
    let s := writing (formatting .secondWrite) (lastWord false (some .format))
    memoryWf s.mem = true ∧ s.port.inFlight = some ⟨.anchor, ⟨true, 127, ⟨true, true⟩, 0x1111⟩⟩ ∧ s.start.part = .formatting ∧ s.anchor.format = some ⟨⟨4096, 2048⟩, some ⟨1024, 1024⟩, .secondWrite⟩ ∧
    s.anchor.write = some (lastWord false (some .format)) ∧ s.host.slot = none ∧ s.bank0.state = .free ∧
    s.txn.context ≠ .slotWait ∧ (inContext s .slotWait).txn.context = .slotWait ∧
    (∀ h, (inContext s .slotWait).host.slot = some h → h.awaits ≠ .bank) ∧
    (holding (inContext s .slotWait) .bank).host.slot = some (held .bank) ∧ (held .bank).awaits ≠ .holdCondition :=
  ⟨rfl, rfl, rfl, rfl, rfl, rfl, rfl, by decide, rfl, (by intro h e; cases e), rfl, by decide⟩

theorem witness_EveryResetSetsEveryBlock :
    memoryWf run.mem = true ∧ run.resetGiven (.powerOn ⟨⟨1, 2⟩, true, true, true⟩) .powerOn ⟨1, 2⟩ ∧
    run.resetGiven (.resetPin ⟨3, 3⟩) .resetPin ⟨3, 3⟩ ∧
    (inPart run .halted).resetGiven (.powerResume ⟨0, 0⟩) .powerResume ⟨0, 0⟩ ∧
    (due run 0x07).resetGiven (.softReset ⟨0, 1⟩) .soft ⟨0, 1⟩ :=
  ⟨rfl, ⟨rfl, rfl⟩, ⟨rfl, rfl⟩, ⟨rfl, rfl, rfl⟩, ⟨rfl, rfl, rfl, .inr (.inl rfl)⟩⟩

theorem witness_EdgesThatOnlyChangeALevel : ¬State.reset.controllerWorks ∧ State.reset.start.part ≠ .halted := by
  refine ⟨?_, by decide⟩
  rintro (h | h | h) <;> cases h

/-- A start-up with `n` anchor words read and the next one at the memory port. -/
def reading (n : Nat) : State :=
  flying { State.reset with start := { State.reset.start with phase := .anchors (List.replicate n 0) } } .startup
    ⟨false, BitVec.ofNat 20 n, bothLanes, 0⟩

/-- A memory of zeros holds no valid copy. -/
theorem witness_AnchorReadsEndWithoutACopy :
    (reading 126).port.inFlight = some ⟨.startup, ⟨false, 126, bothLanes, 0⟩⟩ ∧
    (reading 126).start.phase = .anchors (List.replicate 126 0) ∧ (reading 126).start.part = .startup ∧
    (List.replicate 126 (0 : Word) ++ [0]).length ≠ 128 ∧ (List.replicate 127 (0 : Word) ++ [0]).length = 128 ∧
    (reading 127).pins.pfwHigh = true ∧
    copyFailure (reading 127).memSize ((List.replicate 127 (0 : Word) ++ [0]).take 64) = some .signature ∧
    copyFailure (reading 127).memSize ((List.replicate 127 (0 : Word) ++ [0]).drop 64) = some .signature ∧
    ({ reading 127 with pins := { (reading 127).pins with pfwHigh := false } } : State).pins.pfwHigh = false :=
  ⟨rfl, rfl, rfl, by simp, by simp, rfl, rfl, rfl, rfl⟩

/-- The copy of the image with a tail sequence. -/
def copyOf (seq : DWord) : List Word := copySnapshot { run.anchor.image with tailSeq := seq } 1

/-- A body closed by its CRC is a valid copy when its header and its fields pass, whatever the last word. -/
theorem closed_body_valid (b : List Word) (hl : b.length = 63) (h0 : b.getD 0 0 = 0x5356) (h1 : b.getD 1 0 = 0x4A42)
    (hr : (regionFits 131072 ⟨(copyImage b).logBase, (copyImage b).logSize⟩
      && decide ((copyImage b).tail < (copyImage b).logSize)) = true) :
    copyFailure 131072 (b ++ [crcWords b]) = none := by
  generalize hc : crcWords b = c
  have ef : ∀ w, w < 62 → copyField (b ++ [c]) w = copyField b w := by
    intro w hw
    unfold copyField
    rw [List.getD_append _ _ _ _ (by omega), List.getD_append _ _ _ _ (by omega)]
  have eb : (copyImage (b ++ [c])).logBase = (copyImage b).logBase := congrArg BitVec.toNat (ef 4 (by omega))
  have es : (copyImage (b ++ [c])).logSize = (copyImage b).logSize := congrArg BitVec.toNat (ef 6 (by omega))
  have el : (copyImage (b ++ [c])).tail = (copyImage b).tail := congrArg BitVec.toNat (ef 8 (by omega))
  have e63 : (b ++ [c]).getD 63 0 = c := by simp [List.getD, hl]
  have et : (b ++ [c]).take 63 = b := by rw [← hl]; simp
  have e0 : (b ++ [c]).getD 0 0 = 0x5356 := by rw [List.getD_append _ _ _ _ (by omega), h0]
  have e1 : (b ++ [c]).getD 1 0 = 0x4A42 := by rw [List.getD_append _ _ _ _ (by omega), h1]
  unfold copyFailure
  rw [e0, e1, e63, et, hc, eb, es, el, hr]
  simp

theorem copyOf_valid : copyFailure 131072 (copyOf 1) = none :=
  closed_body_valid _ rfl rfl rfl (by decide +kernel)

/-- Copy A valid, with tail sequence 1 and with tail sequence 0, and copy B blank. -/
theorem witness_AnchorReadsEndWithACopy :
    let words := fun seq => copyOf seq ++ List.replicate 63 0
    let s := fun seq => { reading 127 with start := { (reading 127).start with phase := .anchors (words seq) } }
    (s 1).start.phase = .anchors (words 1) ∧ (words 1).length = 127 ∧ (s 1).pins.pfwHigh = true ∧
    copyTaken (copyFailure (s 1).memSize ((words 1 ++ [0]).take 64)) (copyFailure (s 1).memSize ((words 1 ++ [0]).drop 64)) 1 0 .a ∧
    (copyImage ((words 1 ++ [0]).take 64)).tailSeq = 1 ∧ (copyImage ((words 0 ++ [0]).take 64)).tailSeq = 0 := by
  have hb : copyFailure 131072 ((copyOf 1 ++ List.replicate 63 0 ++ [0]).drop 64) = some .signature := rfl
  have hn : copyFailure 131072 ((copyOf 1 ++ List.replicate 63 0 ++ [0]).drop 64) ≠ none := by rw [hb]; simp
  exact ⟨rfl, rfl, rfl, ⟨copyOf_valid, .inl hn⟩, rfl, rfl⟩

/-- A recovery with the scan at an image word whose reading is at the memory port. -/
def scanning (word count : Nat) (a : Addr) (m : Memory) : State :=
  flying { inPart run .recovery with
    start := { (inPart run .recovery).start with phase := .scan word count 0, scan := ⟨0, 1, 0, 0xFFFF⟩ }, mem := m } .startup
    ⟨false, a, bothLanes, 0⟩

/-- BEGIN word 0 that passes and one that fails; BEGIN word 3 at its bounds. -/
theorem witness_ScanTestsEachWord :
    let m : Memory := [(2049, 0xA0)]
    (scanning 0 0 1024 m).start.part = .recovery ∧ (scanning 0 0 1024 m).start.phase = .scan 0 0 0 ∧
    (scanning 0 0 1024 m).scanPasses 0 0 0 0xA000 ∧ ¬(scanning 0 0 1024 []).scanPasses 0 0 0 0x0000 ∧
    (scanning 3 0 1027 []).scanPasses 3 0 0 256 ∧ ¬(scanning 3 0 1027 []).scanPasses 3 0 0 257 ∧
    ¬(scanning 3 0 1027 []).scanPasses 3 0 0 0 ∧
    (let s := { scanning 0 0 1024 m with port := State.reset.port }
     s.port.waiting.startup = none ∧ s.port.inFlight = none) := by
  refine ⟨rfl, rfl, ?_, ?_, ?_, ?_, ?_, rfl, rfl⟩ <;> unfold State.scanPasses <;> decide

/-- R150: a word that fails its test joins the scan CRC all the same. -/
theorem test_failing_word_joins_the_scan_crc :
    (after .scanReadCompletion (scanning 1 0 1025 [(2050, 7)])).start.scan.crc = crcWord 0xFFFF 7 := by decide +kernel

/-- A recovery in the replay of an image of two entries, its record read in part. -/
def replaying (entry : Nat) (record : List Word) (seq : DWord) : State :=
  { inPart run .recovery with
    start := { (inPart run .recovery).start with phase := .replay 2 entry record, scan := ⟨0, seq, 0, 0⟩ } }

/-- A part state with the event, the two without; in HALTED a read of each phase and a replay write in flight. -/
theorem witness_PfwFallHalts :
    (inPart run .recovery).start.part = .recovery ∧ run.controllerWorks ∧ State.reset.start.part = .startup ∧
    (inPart run .halted).start.part = .halted ∧
    (inPart (reading 5) .halted).port.inFlight = some ⟨.startup, ⟨false, 5, bothLanes, 0⟩⟩ ∧
    (inPart (reading 5) .halted).start.phase = .anchors (List.replicate 5 0) ∧
    (inPart (scanning 3 0 1027 []) .halted).start.phase = .scan 3 0 0 ∧
    (inPart (replaying 0 [0x5C00, 201] 1) .halted).start.phase = .replay 2 0 [0x5C00, 201] ∧ [(0x5C00 : Word), 201].length < 3 ∧
    (let s := inPart (flying (replaying 1 [0x5C00, 201, 7] 1) .startup (put 201 7)) .halted
     memoryWf s.mem = true ∧ s.start.part = .halted ∧ s.port.inFlight = some ⟨.startup, put 201 7⟩ ∧
     s.start.phase = .replay 2 1 [0x5C00, 201, 7] ∧ [(0x5C00 : Word), 201, 7].length = 3) :=
  ⟨rfl, .inr (.inl rfl), rfl, rfl, rfl, rfl, rfl, rfl, by decide, rfl, rfl, rfl, rfl, rfl⟩

theorem witness_ReplayWritesEachEntry :
    let s := replaying 0 [0x5C00, 201] 1
    memoryWf s.mem = true ∧ s.start.part = .recovery ∧ s.start.phase = .replay 2 0 [0x5C00, 201] ∧
    s.port.waiting.startup = none ∧ s.port.inFlight = none ∧ [(0x5C00 : Word), 201].length < 3 ∧
    (replaying 1 [0x5C00, 201, 7] 1).start.phase = .replay 2 1 [0x5C00, 201, 7] ∧
    (flying (replaying 1 [0x5C00, 201, 7] 1) .startup (put 201 7)).port.inFlight = some ⟨.startup, put 201 7⟩ ∧ 0 + 1 < 2 ∧
    2 ≤ 1 + 1 ∧ (replaying 1 [0x5C00, 201, 7] 1).start.scan.expected + 1 ≠ 0 ∧
    (replaying 1 [0x5C00, 201, 7] 0xFFFFFFFF).start.scan.expected + 1 = 0 :=
  ⟨rfl, rfl, rfl, rfl, rfl, by decide, rfl, rfl, by decide, by decide, by decide, by decide⟩

theorem witness_ClosingWriteEntersRun :
    let s := writing { inPart run .recovery with start := { (inPart run .recovery).start with phase := .closing } } (lastWord false none)
    memoryWf s.mem = true ∧ s.start.part = .recovery ∧ s.anchor.write = some (lastWord false none) ∧
    s.port.inFlight = some ⟨.anchor, ⟨true, 127, ⟨true, true⟩, 0x1111⟩⟩ ∧ s.host.slot = none :=
  ⟨rfl, rfl, rfl, rfl, rfl⟩

/-- Every bound of R164 and the value past it. -/
theorem witness_TransferIsAddressedAndChecked :
    run.mgmt.transfer = none ∧ ¬run.addressed 0x35 ∧ run.addressed 0x34 ∧ 13 < (0x0E : Byte).toNat ∧ (0x0D : Byte).toNat ≤ 13 ∧
    firstByteRefused 0x0D 0 ∧ firstByteRefused 0x06 8 ∧ firstByteRefused 0x0A 2 ∧ (7 : Byte).toNat < 8 ∧ (1 : Byte).toNat < 2 ∧
    2 < (3 : Byte).toNat ∧ (2 : Byte).toNat ≤ 2 ∧ 1 < (2 : Byte).toNat := by
  unfold State.addressed firstByteRefused
  decide

theorem witness_RegistersAreWritten :
    run.addressed 0x34 ∧ run.mgmt.transfer = none ∧ (7 : Byte).toNat < 8 ∧ (2 : Byte).toNat ≤ 2 ∧ (1 : Byte).toNat ≤ 1 ∧
    (1 : Byte).toNat < 2 ∧ ([1, 2] : List Byte).length < 3 ∧ ([1, 2, 3] : List Byte).length < 4 ∧
    run.controllerWorks ∧ run.mgmt.status.status ≠ .busy ∧ ¬State.reset.controllerWorks ∧
    ({ run with mgmt := { run.mgmt with status := ⟨.busy, 4, none⟩ } } : State).mgmt.status.status = .busy := by
  refine ⟨rfl, rfl, by decide, by decide, by decide, by decide, by decide, by decide, .inr (.inl rfl), by decide, ?_, rfl⟩
  rintro (h | h | h) <;> cases h

/-- A burst limit at each end of its range and beyond; limits one above and equal to the time elapsed; each kind of held write. -/
theorem witness_ConfigurationIsWritten :
    run.addressed 0x34 ∧ run.mgmt.transfer = none ∧ opened.mgmt.transfer = none ∧ run.start.part ≠ .halted ∧ 1 ≤ (1 : Byte).toNat ∧ (64 : Byte).toNat ≤ 64 ∧ 64 < (65 : Byte).toNat ∧
    (inPart run .halted).start.part = .halted ∧ opened.addressed 0x34 ∧ opened.controllerWorks ∧
    opened.txn.context = .opened .b0 ∧ opened.txn.openTimer.running = true ∧ (0 : Byte) ++ (4 : Byte) ≠ 0#16 ∧
    ((0 : Byte) ++ (4 : Byte)).toNat ≤ opened.txn.openTimer.millis ∧ ¬((0 : Byte) ++ (5 : Byte)).toNat ≤ opened.txn.openTimer.millis ∧
    (let s := inContext run .slotWait
     s.txn.context = .slotWait ∧ s.txn.openTimer.running = true ∧ (∀ h, s.host.slot = some h → h.awaits ≠ .bank) ∧
     (holding s .bank).host.slot = some (held .bank) ∧ (holding s .bank).host.holdTimer.running = true ∧
     (holding s .bank).host.holdTimer.micros = 7) ∧
    (holding run .holdCondition).controllerWorks ∧ (holding run .holdCondition).host.slot = some (held .holdCondition) ∧
    (holding run .holdCondition).host.holdTimer.running = true ∧ (0 : Byte) ++ (7 : Byte) ≠ 0#16 ∧
    ((0 : Byte) ++ (7 : Byte)).toNat ≤ (holding run .holdCondition).host.holdTimer.micros ∧
    ¬((0 : Byte) ++ (8 : Byte)).toNat ≤ (holding run .holdCondition).host.holdTimer.micros :=
  ⟨rfl, rfl, rfl, by decide, by decide, by decide, by decide, rfl, rfl, .inr (.inl rfl), rfl, rfl, by decide, by decide, by decide,
    ⟨rfl, rfl, (by intro h e; cases e), rfl, rfl, rfl⟩, .inr (.inl rfl), rfl, rfl, by decide, by decide, by decide⟩

theorem witness_ReadReturnsTheSelectedItem :
    let r : FaultRecord := ⟨.accessRefused, some .log, some 1024, none, none, 0⟩
    let s := { run with mgmt := { run.mgmt with pointer := 0x08, queue := [r] } }
    s.addressed 0x34 ∧ s.mgmt.transfer = none ∧ s.mgmt.pointer = 0x08 ∧ s.mgmt.queue = r :: [] ∧ s.start.part ≠ .halted ∧
    (inPart s .halted).mgmt.queue = r :: [] ∧ (inPart s .halted).start.part = .halted ∧
    ({ run with mgmt := { run.mgmt with pointer := 0x08 } } : State).mgmt.queue = [] ∧ run.mgmt.pointer ≠ 0x08 ∧
    (0x0D : Byte).toNat ≤ 13 :=
  ⟨rfl, rfl, rfl, rfl, by decide, rfl, rfl, rfl, by decide, by decide⟩

/-- A transfer that goes on and one addressed now; a write transfer with a command byte in it, and a read transfer. -/
theorem witness_TransferGoesOnAndEnds :
    (∀ target, (some 0x34 : Option (BitVec 7)) = some target → run.addressed target) ∧
    (∀ target, (none : Option (BitVec 7)) = some target → run.addressed target) ∧
    (after (.registerWrite ⟨some 0x34, false⟩ [0x0C, 5]) run).mgmt.transfer = some (.write ⟨some 0x0C, 1, [], false, true⟩) ∧
    ∃ left, (after (.faultRead ⟨some 0x34, false⟩ 1) run).mgmt.transfer = some (.read left) :=
  ⟨fun _ h => by injection h with h; subst h; rfl, fun _ h => (by cases h), by decide, _, rfl⟩

/-- A record held and none; an entry named and one past the end. -/
theorem witness_ItemsReadAsLaidOut :
    let r : FaultRecord := ⟨.accessRefused, some .log, some 1024, none, none, 0⟩
    ({ run with mgmt := { run.mgmt with queue := [r] } } : State).mgmt.queue = r :: [] ∧ run.mgmt.queue = [] ∧
    (opened.bank opened.mgmt.bankSel).entries[opened.mgmt.entrySel.toNat]? = some entry200 ∧
    (run.bank run.mgmt.bankSel).entries[run.mgmt.entrySel.toNat]? = none := ⟨rfl, rfl, rfl, rfl⟩

theorem witness_AbortCommandVoidsTheTransaction :
    (due opened 0x01).mgmt.command.due = some 0x01 ∧ (due opened 0x01).controllerWorks ∧
    (due opened 0x01).txn.context = .opened .b0 ∧ (due (inContext run .slotWait) 0x01).txn.context = .slotWait ∧
    (∀ h, (due (inContext run .slotWait) 0x01).host.slot = some h → h.awaits ≠ .bank) ∧
    (due (holding (inContext run .slotWait) .bank) 0x01).host.slot = some (held .bank) ∧ (due run 0x01).txn.context = .idle :=
  ⟨rfl, .inr (.inl rfl), rfl, rfl, (by intro h e; cases e), rfl, rfl⟩

/-- An edit table whose enabled entry ends at the memory size, and one that stays below it. -/
theorem witness_ApplyGuardsRequestsAnAnchorWrite :
    let edit := fun last : Addr => { due run 0x02 with
      mgmt := { (due run 0x02).mgmt with edit := noGuards.set 7 ⟨300, last, .locked, .drop⟩ } }
    let reaches := fun s : State =>
      ∃ i : Fin 8, (s.mgmt.edit[i]).first ≤ (s.mgmt.edit[i]).last ∧ s.memSize ≤ (s.mgmt.edit[i]).last.toNat
    (due run 0x02).mgmt.command.due = some 0x02 ∧ (due (inPart run .unformatted) 0x02).start.part = .unformatted ∧
    (edit 0x20000).start.part = .run ∧ reaches (edit 0x20000) ∧ ¬reaches (edit 0x1FFFF) ∧ (edit 0x1FFFF).anchor.write = none := by
  decide

/-- A log that ends exactly at the memory size, and one that ends a word beyond it. -/
theorem witness_FormatIsCheckedAndAccepted :
    let s := fun (a b : DWord) => { due run 0x04 with mgmt := { (due run 0x04).mgmt with command := ⟨4, a, b, some 4⟩ } }
    (s 128 1024).mgmt.command.due = some 0x04 ∧ (s 128 1024).controllerWorks ∧
    ((s 128 1024).txn.context = .idle ∧ (s 128 1024).bank0.state = .free ∧ (s 128 1024).bank1.state = .free ∧
      (s 128 1024).anchor.write = none ∧ (s 128 1024).anchor.pending = false) ∧
    (130048 : DWord).toNat + (1024 : DWord).toNat ≤ (s 130048 1024).memSize ∧
    ¬(130049 : DWord).toNat + (1024 : DWord).toNat ≤ (s 130049 1024).memSize ∧
    (due opened 0x04).txn.context ≠ .idle :=
  ⟨rfl, .inr (.inl rfl), by decide, by decide, by decide, by decide⟩

theorem witness_PortCommandsAreTaken :
    (due run 0x05).mgmt.command.due = some 0x05 ∧ (due run 0x05).controllerWorks ∧ 7 < (0x08 : Byte).toNat ∧
    (due (inPart run .halted) 0x08).mgmt.command.due = some 0x08 ∧ (due (inPart run .halted) 0x08).start.part = .halted :=
  ⟨rfl, .inr (.inl rfl), by decide, rfl, rfl⟩

/-- An image that fits its memory; copies that fail in their signature, their CRC and their log fields. -/
theorem witness_AnchorCopyLoadsBack :
    (128 ≤ run.anchor.image.logBase ∧ 1024 ≤ run.anchor.image.logSize ∧ run.anchor.image.logSize ≤ 262144 ∧
      run.anchor.image.logBase + run.anchor.image.logSize ≤ 131072 ∧ run.anchor.image.tail < run.anchor.image.logSize) ∧
    (List.replicate 64 (0 : Word)).getD 0 0 ≠ 0x5356 ∧
    (let copy : List Word := [0x5356, 0x4A42]
     copy.getD 0 0 = 0x5356 ∧ copy.getD 1 0 = 0x4A42 ∧ copy.getD 63 0 ≠ crcWords (copy.take 63)) ∧
    let body : List Word := [0x5356, 0x4A42] ++ List.replicate 61 0
    ∀ crc, crc = crcWords body →
      (body ++ [crc]).getD 63 0 = crcWords ((body ++ [crc]).take 63) ∧ ¬128 ≤ ((body ++ [crc]).getD 4 0 ++ (body ++ [crc]).getD 5 0 : DWord).toNat := by
  refine ⟨by decide, by decide, ⟨rfl, rfl, by decide +kernel⟩, ?_⟩
  intro body crc h
  exact ⟨h, show ¬128 ≤ ((0 : Word) ++ (0 : Word) : DWord).toNat by decide⟩

theorem witness_ScanFindsTheWrittenImage :
    let s := scanning 0 0 1024 []
    s.start.scan.expected ≠ 0 ∧ 1 ≤ [entry200].length ∧ entry200.sound ∧ entry200.addr.toNat < s.memSize ∧
    128 ≤ entry200.addr.toNat ∧ ¬(1024 ≤ entry200.addr.toNat ∧ entry200.addr.toNat < 2048) ∧
    s.start.scan.scanned + (3 * [entry200].length + 8) ≤ s.anchor.image.logSize ∧ s.start.phase = .scan 0 0 0 := by
  unfold Entry.sound
  decide

/-- A written byte, and a command that writes another. -/
theorem witness_StepKeepsTheMemoryCanonical :
    let s := flying { run with mem := [(401, 7)], pending := [.hostAccessCompletion], host := { run.host with access := some .passWrite } }
      .host (put 200 0x0009)
    memoryWf s.mem = true ∧ step s = .next { s with mem := [(400, 9)], port := run.port, pending := [], host := run.host } :=
  ⟨rfl, rfl⟩

/-- A part in RUN with nothing in the banks. -/
theorem run_protocol (s : State) (h0 : s.bank0 = Bank.empty) (h1 : s.bank1 = Bank.empty) (ht : s.txn = run.txn) (hl : s.log = run.log)
    (ha : s.apply = run.apply) (hp : s.start = run.start) (hf : s.anchor.format = none) (hs : s.host.slot = none) : s.protocol := by
  have hb : ∀ b, s.bank b = Bank.empty := by intro b; cases b <;> assumption
  refine ⟨?_, ?_, ?_, ⟨?_, ?_⟩, ?_, ⟨?_, ?_⟩, ⟨?_, ?_⟩, ?_⟩
  · intro b
    rw [hb]
    exact ⟨⟨by decide, by decide, by unfold Entry.sound; decide⟩, rfl, rfl, rfl, rfl⟩
  · intro b; rw [hb, ht]; cases b <;> decide
  · intro b; rw [hb, hl]
    constructor
    · rintro ⟨n, h⟩; cases h
    · intro h; cases h
  · intro b; rw [hb, ha]; cases b <;> decide
  · intro i h; rw [ha] at h; cases h
  · unfold State.usedSound; rw [h0, h1, hl]; exact ⟨rfl, Nat.zero_le _⟩
  · intro b h; rw [hb] at h; cases h
  · intro h; rw [h0] at h; cases h
  · intro h; rw [hp] at h; exact absurd rfl h
  · intro h; rw [hf] at h; cases h
  · intro h e; rw [hs] at e; cases e

/-- A transaction open on Bank 0, and its release. -/
theorem witness_StepKeepsTheProtocol :
    let s := { opened with pending := [.release] }
    s.protocol ∧ ∃ t, step s = .next t ∧ t.bank0.state = .logWait := by
  refine ⟨⟨?_, ?_, ?_, ⟨?_, ?_⟩, ⟨rfl, by decide⟩, ⟨?_, ?_⟩, ⟨?_, ?_⟩, ?_⟩, _, rfl, rfl⟩
  · intro b
    cases b
    · exact ⟨⟨by decide, by decide, by unfold Entry.sound; decide⟩, rfl, rfl, rfl, rfl⟩
    · exact ⟨⟨by decide, by decide, by unfold Entry.sound; decide⟩, rfl, rfl, rfl, rfl⟩
  · intro b; cases b <;> decide
  · intro b
    constructor
    · rintro ⟨n, h⟩; cases h
    · intro h; cases b <;> cases h
  · intro b; cases b <;> decide
  · intro i h; cases h
  · intro b h; cases b <;> cases h
  · intro h; cases h
  · intro h; exact absurd rfl h
  · intro h; cases h
  · intro h e; cases e

/-- A part in RUN with its timers and a pulse in progress, on an empty queue. -/
theorem witness_StepKeepsTheNumbersInRange :
    let s := { opened with host := { opened.host with pulse := some 100, holdTimer := ⟨65535, true⟩ } }
    s.bounded ∧ s.haltSound ∧ ∃ t, step s = .next t ∧ t.host.pulse = some 99 := by
  refine ⟨?_, by unfold State.haltSound; decide, _, rfl, rfl⟩
  refine ⟨by decide, by decide, by decide, by decide, by decide, ?_, by decide, by decide, by decide, by decide, by decide, by decide⟩
  intro n h
  injection h with h
  omega

/-- A PASS write in flight, and the step that completes it. -/
theorem witness_StepKeepsOneClaimEach :
    let s := flying { run with host := { run.host with access := some .passWrite }, pending := [.hostAccessCompletion] } .host (put 200 9)
    s.protocol ∧ s.claimsSound ∧ ∃ t, step s = .next t ∧ t.host.access = none ∧ t.port.inFlight = none := by
  refine ⟨run_protocol _ rfl rfl rfl rfl rfl rfl rfl rfl, ⟨?_, ?_, .inr rfl, ?_⟩, _, rfl, rfl, rfl⟩
  · intro who f h
    exact absurd (by cases who <;> rfl) h
  · exact ⟨fun _ => .inl (by simp [flying]), fun _ => .inr ⟨_, rfl, rfl⟩⟩
  · rintro (h | ⟨f, h, hw⟩)
    · exact absurd rfl h
    · injection h with h; subst h; cases hw

end Sys2Proof.Tests
end

section
/-! The host port (R1 to R18, R66 to R77): how a write and a read the port takes are classified and routed, and the host
obligations O3 to O16. -/

namespace Sys2Proof.Machine

/-! ## A cycle taken: what the tests read of the state is as before the cycle -/

section OnBus
variable (s : State) (x : HostLines)

@[simp] theorem onBus_txn : (s.onBus x).txn = s.txn := rfl
@[simp] theorem onBus_bank (b : BankId) : (s.onBus x).bank b = s.bank b := by cases b <;> rfl
@[simp] theorem onBus_classify (a : Addr) : (s.onBus x).classify a = s.classify a := rfl
@[simp] theorem onBus_holds (a : Addr) : (s.onBus x).holds a = s.holds a := rfl


end OnBus

/-! ## Classification (R5 to R7) -/

theorem GuardEntry.contains_iff (g : GuardEntry) (a : Addr) : g.contains a = true ↔ g.first ≤ a ∧ a ≤ g.last := by
  simp [GuardEntry.contains]

/-- R5: the lowest-indexed entry that contains an address. -/
theorem firstGuard_eq_some {t : GuardTable} {a : Addr} {i : Fin 8} (hi : t[i].first ≤ a ∧ a ≤ t[i].last)
    (hlow : ∀ j < i, ¬(t[j].first ≤ a ∧ a ≤ t[j].last)) : firstGuard t a = some i := by
  unfold firstGuard
  rw [List.find?_eq_some_iff_getElem]
  refine ⟨(t[i].contains_iff a).mpr hi, i, by simp, by simp, fun j hj => ?_⟩
  rw [Bool.not_eq_true', ← Bool.not_eq_true, GuardEntry.contains_iff]
  exact hlow _ (by simpa [Fin.lt_def] using hj)

/-- R5: no entry contains an address. -/
theorem firstGuard_eq_none {t : GuardTable} {a : Addr} (h : ∀ i : Fin 8, ¬(t[i].first ≤ a ∧ a ≤ t[i].last)) :
    firstGuard t a = none := by
  unfold firstGuard
  rw [List.find?_eq_none]
  intro i _
  rw [GuardEntry.contains_iff]
  exact h i

section Classify
variable {s : State} {a : Addr}

theorem classify_range (h : s.memSize ≤ a.toNat) : s.classify a = ⟨.range, none, .drop⟩ := by
  unfold State.classify
  rw [if_pos h]

theorem classify_anchor (h1 : a.toNat < s.memSize) (h2 : a.toNat < 128) : s.classify a = ⟨.anchor, none, .drop⟩ := by
  unfold State.classify
  rw [if_neg (Nat.not_le.mpr h1), if_pos (show a.toNat < Config.anchorArea from h2)]

theorem classify_log (h1 : a.toNat < s.memSize) (h2 : 128 ≤ a.toNat) (h3 : s.logRegionHas a) :
    s.classify a = ⟨.log, none, .drop⟩ := by
  unfold State.classify
  rw [if_neg (Nat.not_le.mpr h1), if_neg (show ¬a.toNat < Config.anchorArea from Nat.not_lt.mpr h2),
    if_pos ((inLog_iff s a).mpr h3)]

/-- R7, test 4: the policy of the lowest-indexed entry that contains the address. -/
theorem classify_guarded (h1 : a.toNat < s.memSize) (h2 : 128 ≤ a.toNat) (h3 : ¬s.logRegionHas a) {i : Fin 8}
    (hg : firstGuard s.host.guards a = some i) :
    s.classify a = ⟨(s.host.guards[i]).policy.writeClass, some i, (s.host.guards[i]).action⟩ := by
  unfold State.classify
  rw [if_neg (Nat.not_le.mpr h1), if_neg (show ¬a.toNat < Config.anchorArea from Nat.not_lt.mpr h2),
    if_neg (fun h => h3 ((inLog_iff s a).mp h))]
  simp only [hg]

/-- R7, test 5: no entry contains the address. -/
theorem classify_unguarded (h1 : a.toNat < s.memSize) (h2 : 128 ≤ a.toNat) (h3 : ¬s.logRegionHas a)
    (hg : firstGuard s.host.guards a = none) : s.classify a = ⟨.plain, none, .drop⟩ := by
  unfold State.classify
  rw [if_neg (Nat.not_le.mpr h1), if_neg (show ¬a.toNat < Config.anchorArea from Nat.not_lt.mpr h2),
    if_neg (fun h => h3 ((inLog_iff s a).mp h))]
  simp only [hg]

/-- R7, R17: a word a PLAIN or JOURNALED write can go to is home memory. -/
theorem home_of_class (h : (s.classify a).cls = .plain ∨ (s.classify a).cls = .journaled) :
    a.toNat < s.memSize ∧ 128 ≤ a.toNat ∧ ¬s.logRegionHas a := by
  have h1 : a.toNat < s.memSize := by
    by_contra hc
    simp [classify_range (Nat.not_lt.mp hc)] at h
  have h2 : 128 ≤ a.toNat := by
    by_contra hc
    simp [classify_anchor h1 (Nat.not_le.mp hc)] at h
  refine ⟨h1, h2, fun hc => ?_⟩
  simp [classify_log h1 h2 hc] at h

end Classify

/-- Settles O3, test by test. -/
theorem writeClassFollowsTheTestsInOrder : Obligations.WriteClassFollowsTheTestsInOrder := by
  intro s a size inRegion classOf inGuard
  have class_eq : ∀ p, classOf p = p.writeClass := by intro p; cases p <;> rfl
  refine ⟨classify_range, classify_anchor, classify_log, ?_, ?_⟩
  · intro i h1 h2 h3 hi hlow
    rw [class_eq]
    exact classify_guarded h1 h2 h3 (firstGuard_eq_some hi hlow)
  · intro h1 h2 h3 hi
    exact classify_unguarded h1 h2 h3 (firstGuard_eq_none hi)

/-! ## Routing (R8 to R14) -/

section Routing
variable {s : State} {c : HostCycle} {k : Classified} {b : BankId}

theorem takeWrite_voided {r : VoidReason} (h : s.txn.context = .voided r) : s.takeWrite c = s.countSilent := by
  simp only [State.takeWrite, h]

theorem takeWrite_routed (h : ∀ r, s.txn.context ≠ .voided r) : s.takeWrite c = s.routeWrite c (s.classify c.addr) := by
  unfold State.takeWrite
  split
  · rename_i r hr; exact absurd hr (h r)
  · rfl
  · rfl
  · rfl

theorem routeWrite_plain_idle (hk : k.cls = .plain) (h : s.txn.context = .idle) : s.routeWrite c k = s.passOrHold c k := by
  simp only [State.routeWrite, State.routePlain, hk, h]

theorem routeWrite_journaled_idle (hk : k.cls = .journaled) (h : s.txn.context = .idle) :
    s.routeWrite c k = s.refuse .unjournaled c.addr k := by
  simp only [State.routeWrite, State.routeJournaled, hk, h]

/-- R10: PLAIN and JOURNALED writes in OPEN are captured. -/
theorem routeWrite_opened (hk : k.cls = .plain ∨ k.cls = .journaled) (h : s.txn.context = .opened b) :
    s.routeWrite c k = s.capture b c.addr c.data c.lanes := by
  rcases hk with hk | hk
  · simp only [State.routeWrite, State.routePlain, hk, h]
  · simp only [State.routeWrite, State.routeJournaled, hk, h]

/-- R77: PLAIN and JOURNALED writes in SLOT_WAIT are held awaiting a bank. -/
theorem routeWrite_slotWait (hk : k.cls = .plain ∨ k.cls = .journaled) (h : s.txn.context = .slotWait) :
    s.routeWrite c k = s.holdWrite ⟨c.addr, c.data, c.lanes, k.cls, k.entry, .bank⟩ := by
  rcases hk with hk | hk
  · simp only [State.routeWrite, State.routePlain, hk, h]
  · simp only [State.routeWrite, State.routeJournaled, hk, h]

end Routing

section Write
variable {s : State} (a : Addr) (d : Word) {l : Lanes} (oe : Bool)

/-- R2, R3: HOST_WRITE at a port that takes the cycle. -/
theorem exec_hostWrite (h : s.hostTakes) (hl : noLane l = false) :
    exec (.hostWrite a d l oe) s = .next ((s.onBus (writeLines a d l oe)).takeWrite ⟨true, a, d, l⟩) :=
  congrArg Host.Outcome.next (hostWrite_takes h a d oe hl)

/-- R7, R8: outside VOID the class decides what the write does. -/
theorem exec_hostWrite_routed (h : s.hostTakes) (hl : noLane l = false) (hc : ∀ r, s.txn.context ≠ .voided r) :
    exec (.hostWrite a d l oe) s =
      .next ((s.onBus (writeLines a d l oe)).routeWrite ⟨true, a, d, l⟩ (s.classify a)) := by
  rw [exec_hostWrite a d oe h hl, takeWrite_routed (by simpa using hc), onBus_classify]

end Write

/-- Settles O4. -/
theorem writeInVoidIsRefusedSilently : Obligations.WriteInVoidIsRefusedSilently := by
  intro s a d l oe r h hl hc
  rw [exec_hostWrite a d oe h hl, takeWrite_voided (by simpa using hc)]
  rfl

/-- R9, R11, R70: a PLAIN write in IDLE by the hold condition. -/
theorem passOrHold_pass {s : State} {c : HostCycle} (k : Classified) (h : ¬s.heldWord c.addr) :
    s.passOrHold c k = s.passWrite c.addr c.data c.lanes := by
  unfold State.passOrHold
  rw [if_neg (fun e => h ((holds_iff s c.addr).mp e))]

/-- R11, R70, R73: a held write enters the slot and asks both banks for a promotion. -/
theorem passOrHold_hold {s : State} {c : HostCycle} (k : Classified) (h : s.heldWord c.addr) :
    ∃ k0 k1, s.bank0.promoted c.addr k0 ∧ s.bank1.promoted c.addr k1 ∧
      s.passOrHold c k =
        { s.holdWrite ⟨c.addr, c.data, c.lanes, k.cls, k.entry, .holdCondition⟩ with bank0 := k0, bank1 := k1 } := by
  unfold State.passOrHold
  rw [if_pos ((holds_iff s c.addr).mpr h)]
  obtain ⟨k0, h0, e0⟩ := promoteIn_spec (s.holdWrite ⟨c.addr, c.data, c.lanes, k.cls, k.entry, .holdCondition⟩) .b0 c.addr
  rw [e0]
  obtain ⟨k1, h1, e1⟩ := promoteIn_spec
    ((s.holdWrite ⟨c.addr, c.data, c.lanes, k.cls, k.entry, .holdCondition⟩).setBank .b0 k0) .b1 c.addr
  exact ⟨k0, k1, h0, h1, e1⟩

/-- Settles O5: PASS, HOLD and SLOT_WAIT. -/
theorem writeIsPassedOrHeld : Obligations.WriteIsPassedOrHeld := by
  intro s a d l oe h hl t
  have routed := fun hc => exec_hostWrite_routed a d oe h hl hc
  refine ⟨fun hc hk hw => ?_, fun hc hk hw => ?_, fun hc hk => ?_⟩
  · rw [routed (by simp [hc]), routeWrite_plain_idle hk (by simpa using hc),
      passOrHold_pass _ (by rwa [← holds_iff, onBus_holds, holds_iff])]
    rfl
  · rw [routed (by simp [hc]), routeWrite_plain_idle hk (by simpa using hc)]
    obtain ⟨k0, k1, h0, h1, e⟩ := passOrHold_hold (s := t) (c := ⟨true, a, d, l⟩) (s.classify a)
      (by rwa [← holds_iff, onBus_holds, holds_iff])
    refine ⟨k0, k1, h0, h1, ?_⟩
    rw [e, hk]
    rfl
  · rw [routed (by simp [hc]), routeWrite_slotWait hk (by simpa using hc)]
    rfl

/-! ## Captures (R10, R45 to R49) -/

/-- R47, R48: a capture that finds its entry or room. -/
theorem capture_stored {s : State} {b : BankId} {a : Addr} {d : Word} {l : Lanes} {es : List Entry}
    (h : captureEntries (s.bank b).entries a d l = some es) :
    s.capture b a d l = s.setBank b { s.bank b with entries := es } := by
  simp only [State.capture, h]

/-- R47: the word has no entry and the bank has room. -/
theorem captureEntries_new {es : List Entry} {a : Addr} (d : Word) (l : Lanes) (hn : ∀ e ∈ es, e.addr ≠ a)
    (hr : es.length < 256) : captureEntries es a d l = some (es ++ [⟨a, maskLanes l d, l, false⟩]) := by
  rcases captureEntries_cases es a d l with ⟨h, _⟩ | ⟨_, _, h⟩ | ⟨_, h, _⟩
  · simp only [List.any_eq_true, beq_iff_eq] at h
    obtain ⟨e, he, ha⟩ := h
    exact absurd ha (hn e he)
  · exact h
  · omega

/-- R49: the word has no entry and the bank is full. -/
theorem captureEntries_full {es : List Entry} {a : Addr} (d : Word) (l : Lanes) (hn : ∀ e ∈ es, e.addr ≠ a)
    (hr : 256 ≤ es.length) : captureEntries es a d l = none := by
  rcases captureEntries_cases es a d l with ⟨h, _⟩ | ⟨_, h, _⟩ | ⟨_, _, h⟩
  · simp only [List.any_eq_true, beq_iff_eq] at h
    obtain ⟨e, he, ha⟩ := h
    exact absurd ha (hn e he)
  · omega
  · exact h

/-- R24: a void event in OPEN. -/
theorem voidTxn_opened {s : State} {b : BankId} (h : s.txn.context = .opened b) (r : VoidReason) :
    s.voidTxn r = s.voidedOpen b r := by
  simp only [State.voidTxn, h]
  rfl

/-- R49: a capture that overflows the bank in use. -/
theorem capture_overflow {s : State} {b : BankId} {a : Addr} {d : Word} {l : Lanes} (hc : s.txn.context = .opened b)
    (h : captureEntries (s.bank b).entries a d l = none) : s.capture b a d l = (s.voidedOpen b .overflow).countSilent := by
  simp only [State.capture, h, voidTxn_opened hc]

/-- Settles O6: a new last entry, or OVERFLOW. -/
theorem writeInOpenMakesAnEntryOrOverflows : Obligations.WriteInOpenMakesAnEntryOrOverflows := by
  intro s a d l oe b h hl hc hk hn t
  rw [exec_hostWrite_routed a d oe h hl (by simp [hc]), routeWrite_opened hk (by simpa using hc)]
  refine ⟨fun hr => ?_, fun hr => ?_⟩
  · rw [capture_stored (s := t) (by rw [onBus_bank]; exact captureEntries_new d l hn hr), onBus_bank]
  · intro u
    rw [capture_overflow (by simpa using hc) (by rw [onBus_bank]; exact captureEntries_full d l hn hr)]
    rfl

/-! ## Refusals (R12, R13, R27, R174, R175) -/

theorem offer_room {m : ManagementPort} (r : FaultRecord) (h : m.queue.length < 16) :
    m.offer r = { m with queue := m.queue ++ [r] } := if_pos h

theorem offer_full {m : ManagementPort} (r : FaultRecord) (h : 16 ≤ m.queue.length) :
    m.offer r = { m with dropped := min 255 (m.dropped + 1) } := if_neg (Nat.not_lt.mpr h)

/-- R24: void events are ignored in IDLE and in VOID. -/
theorem voidTxn_ignored {s : State} (h : s.txn.context = .idle ∨ ∃ r, s.txn.context = .voided r) (r : VoidReason) :
    s.voidTxn r = s := by
  rcases h with h | ⟨q, h⟩ <;> simp only [State.voidTxn, h]

/-- R24: a void event in SLOT_WAIT with nothing held awaiting a bank. -/
theorem voidTxn_slotWait {s : State} (h : s.txn.context = .slotWait) (hs : s.host.slot = none) (r : VoidReason) :
    s.voidTxn r = s.voidedWaiting r := by
  have none_waits : (s.voidedWaiting r).slotAwaiting .bank = none := slotAwaiting_none (by simp [State.voidedWaiting, hs])
  simp only [State.voidTxn, h]
  show (s.voidedWaiting r).refuseWaiting = s.voidedWaiting r
  simp only [State.refuseWaiting, none_waits]

/-- R13, R15: the action of a refusal where its HOST_RESET notice has nothing to void sets the pulse alone. -/
theorem refusalAction_eq {s : State} (h : s.txn.context = .idle ∨ ∃ r, s.txn.context = .voided r) (x : RefusalAction) :
    s.refusalAction x = { s with host := { s.host with pulse := pulseAfter x s.host.pulse } } := by
  cases x with
  | drop => rfl
  | dropAndReset => exact voidTxn_ignored (s := { s with host := { s.host with pulse := some 100 } }) h .hostReset

/-- R12, R13: a refusal in IDLE. -/
theorem refuse_idle {s : State} (h : s.txn.context = .idle) (cause : Reason) (a : Addr) (k : Classified) :
    s.refuse cause a k =
      let u := s.withRefused cause a k.entry
      { u with host := { u.host with pulse := pulseAfter k.action s.host.pulse } } :=
  refusalAction_eq (s := s.withRefused cause a k.entry) (.inl h) k.action

/-- R27: a LOCKED refusal, by what its REFUSED_WRITE notice leaves. -/
theorem refuseLocked_eq {s u : State} {a : Addr} {k : Classified}
    (hv : (s.withRefused .locked a k.entry).voidTxn .refusedWrite = u)
    (hu : u.txn.context = .idle ∨ ∃ r, u.txn.context = .voided r) :
    s.refuseLocked a k = { u with host := { u.host with pulse := pulseAfter k.action u.host.pulse } } := by
  rw [← refusalAction_eq hu, ← hv]
  rfl

/-- Settles O8: the offer, then each refused class in each context. -/
theorem refusedWriteOffersItsRecord : Obligations.RefusedWriteOffersItsRecord := by
  refine ⟨fun m r => ⟨offer_room r, offer_full r⟩, ?_⟩
  intro s a d l oe h hl refused acted gives
  let t := s.onBus (writeLines a d l oe)
  have routed {k : Classified} (hk : s.classify a = k) (hc : ∀ r, s.txn.context ≠ .voided r) :
      exec (.hostWrite a d l oe) s = .next (t.routeWrite ⟨true, a, d, l⟩ k) :=
    hk ▸ exec_hostWrite_routed a d oe h hl hc
  refine ⟨fun hc => ⟨fun hk => routed hk hc, fun hk => routed hk hc, fun hk => routed hk hc⟩,
    fun entry action => ⟨?_, ?_⟩⟩
  · intro hk hc
    refine (routed hk (by simp [hc])).trans (congrArg Host.Outcome.next ?_)
    exact (routeWrite_journaled_idle (s := t) rfl hc).trans (refuse_idle (s := t) hc _ _ _)
  · intro hk
    refine ⟨fun hc => ?_, fun b hc => ?_, fun hc => ?_⟩ <;>
      refine (routed hk (by simp [hc])).trans (congrArg Host.Outcome.next ?_)
    · exact refuseLocked_eq (s := t) (voidTxn_ignored (s := refused .locked entry) (.inl hc) _) (.inl hc)
    · refine (refuseLocked_eq (s := t) (k := ⟨.locked, entry, action⟩)
        (voidTxn_opened (s := refused .locked entry) hc _) (.inr ⟨_, rfl⟩)).trans ?_
      cases b <;> rfl
    · exact refuseLocked_eq (s := t) (voidTxn_slotWait (s := refused .locked entry) hc h.2.2 _) (.inr ⟨_, rfl⟩)

/-! ## Reads (R17, R18, R66 to R68) -/

section Read
variable {s : State}

/-- R2, R3: HOST_READ at a port that takes the cycle. -/
theorem exec_hostRead (h : s.hostTakes) (a : Addr) {l : Lanes} (hl : noLane l = false) :
    exec (.hostRead a l) s =
      .next ((s.onBus (readLines a l s.pins.host.data)).takeRead ⟨false, a, s.pins.host.data, l⟩) :=
  congrArg Host.Outcome.next (hostRead_takes h a s.pins.host.data hl)

variable {c : HostCycle}

theorem takeRead_range (h : s.memSize ≤ c.addr.toNat) :
    s.takeRead c = (s.drive 0xFFFF).withRefused .rangeRead c.addr none := if_pos h

theorem takeRead_outside (h : c.addr.toNat < s.memSize) (ho : c.addr.toNat < 128 ∨ s.logRegionHas c.addr) :
    s.takeRead c = s.claimRead c 0 c.lanes := by
  unfold State.takeRead
  rw [if_neg (Nat.not_le.mpr h), if_pos]
  rcases ho with ho | ho
  · rw [decide_eq_true (show c.addr.toNat < Config.anchorArea from ho), Bool.true_or]
  · rw [(inLog_iff s c.addr).mpr ho, Bool.or_true]

theorem takeRead_home (h : c.addr.toNat < s.memSize) (h2 : 128 ≤ c.addr.toNat) (h3 : ¬s.logRegionHas c.addr) :
    s.takeRead c = s.forward c := by
  unfold State.takeRead
  rw [if_neg (Nat.not_le.mpr h), if_neg]
  simp only [Bool.or_eq_true, decide_eq_true_eq, not_or]
  exact ⟨Nat.not_lt.mpr h2, fun hx => h3 ((inLog_iff s c.addr).mp hx)⟩

/-- R17, test 4: HOST_READ of a word of home memory. -/
theorem exec_hostRead_home (h : s.hostTakes) {a : Addr} {l : Lanes} (hl : noLane l = false) (h1 : a.toNat < s.memSize)
    (h2 : 128 ≤ a.toNat) (h3 : ¬s.logRegionHas a) :
    exec (.hostRead a l) s =
      .next ((s.onBus (readLines a l s.pins.host.data)).forward ⟨false, a, s.pins.host.data, l⟩) := by
  rw [exec_hostRead h a hl]
  exact congrArg Host.Outcome.next
    (takeRead_home (s := s.onBus (readLines a l s.pins.host.data)) (c := ⟨false, a, s.pins.host.data, l⟩) h1 h2 h3)

end Read

/-- Settles O9. -/
theorem readOutsideHomeMemory : Obligations.ReadOutsideHomeMemory := by
  intro s a l h hl t
  let c : HostCycle := ⟨false, a, s.pins.host.data, l⟩
  rw [exec_hostRead h a hl]
  exact ⟨fun hr => congrArg Host.Outcome.next (takeRead_range (s := t) (c := c) hr),
    fun hr ho => congrArg Host.Outcome.next (takeRead_outside (s := t) (c := c) hr ho)⟩

/-- R18: the lanes of a word of two bytes that a lane set keeps. -/
theorem maskLanes_joinBytes (l : Lanes) (u v : Byte) :
    maskLanes l (joinBytes u v) = joinBytes (if l.upper then u else 0) (if l.lower then v else 0) := by
  rw [maskLanes, pickLanes, upperByte_joinBytes, lowerByte_joinBytes, upperByte_zero, lowerByte_zero]

/-- R66 to R68: a forwarded read by the word its sources give and the lanes they leave. -/
theorem forward_eq {s : State} {c : HostCycle} {found : Word} {need : Lanes}
    (hf : maskLanes c.lanes (wordFrom (s.sources c.addr)) = found)
    (hn : lanesWithout c.lanes (lanesFrom (s.sources c.addr)) = need) :
    s.forward c = if noLane need then s.drive found else s.claimRead c found need := by
  subst hf hn
  rfl

/-- Settles O10: each lane from its newest source, the others from memory. -/
theorem forwardedReadTakesItsLanes : Obligations.ForwardedReadTakesItsLanes := by
  intro s a l h hl h1 h2 h3 t es upper lower found need
  have hfound : maskLanes l (wordFrom es) = found := maskLanes_joinBytes l _ _
  have hneed : lanesWithout l (lanesFrom es) = need := by
    simp [lanesWithout, lanesFrom, upperFrom, lowerFrom, need, upper, lower]
  rw [exec_hostRead_home h hl h2 h1 h3, forward_eq (s := t) (c := ⟨false, a, s.pins.host.data, l⟩) hfound hneed]
  rw [show noLane need = !(need.upper || need.lower) from (Bool.not_or _ _).symm]
  cases need.upper || need.lower <;> rfl

/-! ## A captured write read back -/

/-- An entry supplies every lane of a lane set with the bytes of a word. -/
def Entry.supplies (e : Entry) (l : Lanes) (d : Word) : Prop :=
  (l.upper = true → e.lanes.upper = true ∧ upperByte e.data = upperByte d) ∧
  (l.lower = true → e.lanes.lower = true ∧ lowerByte e.data = lowerByte d)

/-- R47: a new entry supplies what was written. -/
theorem newEntry_supplies (a : Addr) (d : Word) (l : Lanes) : (⟨a, maskLanes l d, l, false⟩ : Entry).supplies l d :=
  ⟨fun h => by simp [h], fun h => by simp [h]⟩

/-- R48: a merged entry supplies what was written. -/
theorem mergeEntry_supplies (e : Entry) (d : Word) (l : Lanes) : (mergeEntry e d l).supplies l d :=
  ⟨fun h => by simp [mergeEntry, laneUnion, h], fun h => by simp [mergeEntry, laneUnion, h]⟩

/-- R47, R48: after a capture the word's entry supplies what was written. -/
theorem captureEntries_supplies {es es' : List Entry} {a : Addr} {d : Word} {l : Lanes}
    (h : captureEntries es a d l = some es') : ∃ e, es'.find? (·.addr == a) = some e ∧ e.supplies l d := by
  rcases captureEntries_cases es a d l with ⟨ha, h'⟩ | ⟨ha, _, h'⟩ | ⟨_, _, h'⟩
  · rw [h', Option.some.injEq] at h
    obtain ⟨e, he⟩ := Option.isSome_iff_exists.mp (List.find?_isSome.mpr (List.any_eq_true.mp ha))
    have hea : (e.addr == a) = true := by simpa using List.find?_some he
    have keeps : ((·.addr == a) ∘ fun e : Entry => if e.addr == a then mergeEntry e d l else e) = (·.addr == a) := by
      funext x
      simp only [Function.comp_apply]
      split <;> simp_all
    refine ⟨mergeEntry e d l, ?_, mergeEntry_supplies e d l⟩
    rw [← h, mergedAt, List.find?_map, keeps, he]
    simp only [Option.map_some, hea, if_true]
  · rw [h', Option.some.injEq] at h
    refine ⟨_, ?_, newEntry_supplies a d l⟩
    have hn : es.find? (·.addr == a) = none := by simpa using ha
    rw [← h, List.find?_append, hn]
    simp
  · rw [h'] at h
    cases h

/-- R66: in OPEN the bank's entry of the word is its newest source. -/
theorem sources_opened {s : State} {b : BankId} {a : Addr} {e : Entry} (hc : s.txn.context = .opened b)
    (he : (s.bank b).lookup a = some e) : ∃ es, s.sources a = e :: es := by
  unfold State.sources
  simp only [hc, he]
  exact ⟨_, rfl⟩

/-- R66 to R68: a newest source that supplies every lane asked for is what the read drives. -/
theorem forward_supplied {s : State} {c : HostCycle} {e : Entry} {es : List Entry} {d : Word}
    (hs : s.sources c.addr = e :: es) (he : e.supplies c.lanes d) : s.forward c = s.drive (maskLanes c.lanes d) := by
  obtain ⟨hu, hl⟩ := he
  have word : maskLanes c.lanes (wordFrom (e :: es)) = maskLanes c.lanes d := by
    rw [wordFrom, maskLanes_joinBytes]
    apply word_ext
    · cases h : c.lanes.upper <;> simp_all [upperFrom]
    · cases h : c.lanes.lower <;> simp_all [lowerFrom]
  have none_needed : noLane (lanesWithout c.lanes (lanesFrom (e :: es))) = true := by
    cases h : c.lanes.upper <;> cases h' : c.lanes.lower <;>
      simp_all [noLane, lanesWithout, lanesFrom, upperFrom, lowerFrom]
  rw [← hs] at word none_needed
  rw [forward_eq word rfl, if_pos none_needed]

/-- Settles O12: the captured entry is the newest source of the read. -/
theorem capturedWriteIsReadBack : Obligations.CapturedWriteIsReadBack := by
  intro s a d l oe b h hl hc hk hroom
  obtain ⟨h1, h2, h3⟩ := home_of_class hk
  obtain ⟨es, hes⟩ : ∃ es, captureEntries (s.bank b).entries a d l = some es := by
    rcases captureEntries_cases (s.bank b).entries a d l with ⟨_, hm⟩ | ⟨_, _, hm⟩ | ⟨hn, hfull, _⟩
    · exact ⟨_, hm⟩
    · exact ⟨_, hm⟩
    · rcases hroom with ⟨e, he, ha⟩ | hlt
      · exact absurd (by simpa using ha) (List.any_eq_false.mp hn e he)
      · omega
  obtain ⟨e, he, hsup⟩ := captureEntries_supplies hes
  let t := (s.onBus (writeLines a d l oe)).setBank b { s.bank b with entries := es }
  have wrote : exec (.hostWrite a d l oe) s = .next t := by
    rw [exec_hostWrite_routed a d oe h hl (by simp [hc]), routeWrite_opened hk (by simpa using hc),
      capture_stored (by rw [onBus_bank]; exact hes), onBus_bank]
  have takes : t.endCycle.hostTakes := by
    obtain ⟨hw, ha, hs⟩ := h
    simpa [t, State.hostTakes, State.controllerWorks, State.endCycle, State.onBus] using ⟨hw, ha, hs⟩
  have home : t.endCycle.memSize = s.memSize ∧ (t.endCycle.logRegionHas a ↔ s.logRegionHas a) := by
    simp [t, State.memSize, State.logRegionHas, State.endCycle, State.onBus]
  obtain ⟨r, hr⟩ := sources_opened (s := t.endCycle.onBus (readLines a l t.endCycle.pins.host.data)) (b := b)
    (by simp [t, State.endCycle, hc]) (show _ = some e by rw [onBus_bank]; cases b <;> exact he)
  refine ⟨t, t.endCycle, _, wrote, rfl,
    exec_hostRead_home takes hl (home.1 ▸ h1) h2 (fun hx => h3 (home.2.mp hx)), ?_⟩
  rw [forward_supplied hr hsup]
  refine ⟨rfl, ?_, ?_⟩ <;> cases b <;> rfl

/-! ## Cycles held, taken later and ended (R1 to R3, R135) -/

/-- R2: a cycle that has waited untaken at a port that takes it, presented again, is that cycle taken. -/
theorem presentCycle_waiting {s : State} (h : s.hostTakes) (ht : s.host.cycleTaken = false) (hd : s.host.driven = none) :
    s.presentCycle s.pins.host = s.takeCycle := by
  rw [presentCycle_takes h, ← ht, ← hd]

/-- R2: the take of a waiting cycle. -/
theorem takeWaiting_ready {s : State} (h : s.cycleReady = true) : s.takeWaiting = s.takeCycle := if_pos h

/-- R135: with no claim waiting and none in flight the host port claims. -/
theorem canClaim_host {s : State} (hw : s.port.waiting.host = none) (hf : ∀ f, s.port.inFlight = some f → f.who ≠ .host) :
    s.canClaim .host = true := by
  have no_flight : s.flightOf .host = none := by
    unfold State.flightOf
    split
    · rename_i f e
      rw [if_neg (hf f e)]
    · rfl
  simp [State.canClaim, Claims.get, hw, no_flight]

/-- R2, R135: a waiting cycle is taken by the host port's next claim and by an idle step, as if it were presented then. -/
theorem waiting_cycle_taken {s : State} (h : s.hostTakes) (hr : recognised s.pins.host ≠ none) (ht : s.host.cycleTaken = false)
    (hd : s.host.driven = none) {c : Instr} (hc : exec c s = .next (s.presentCycle s.pins.host)) :
    (s.port.waiting.host = none → (∀ f, s.port.inFlight = some f → f.who ≠ .host) →
      exec (.memoryClaim .host) s = exec c s) ∧
    (s.pending = [] → step s = exec c s) := by
  have ready : s.cycleReady = true := (cycleReady_iff s).mpr ⟨h, hr, ht⟩
  rw [hc, presentCycle_waiting h ht hd]
  refine ⟨fun hw hf => ?_, fun hp => ?_⟩
  · show Host.Outcome.next (s.nextClaim .host) = _
    simp only [State.nextClaim, canClaim_host hw hf, takeWaiting_ready ready, if_true]
  · simp only [step, hp, State.idleStep, ready, if_true]

/-- R2, R3: a cycle the port does not take is held with HWAIT# low. -/
theorem presentCycle_holds {s : State} {x : HostLines} (hr : recognised x ≠ none)
    (h : ¬s.controllerWorks ∨ s.host.access ≠ none ∨ s.host.slot ≠ none) :
    (s.presentCycle x).hwaitLow = true ∧ s.presentCycle x =
      { s with pins := { s.pins with host := x }, host := { s.host with cycleTaken := false, driven := none } } := by
  let t : State := { s with pins := { s.pins with host := x }, host := { s.host with cycleTaken := false, driven := none } }
  have held : (t.hostBusy || !t.start.part.working) = true := by
    rcases h with h | h | h
    · have := not_working_of_not_controllerWorks h
      simp [t, this]
    · simp [t, State.hostBusy, Option.isSome_iff_ne_none.mpr h]
    · simp [t, State.hostBusy, Option.isSome_iff_ne_none.mpr h]
  have kept : s.presentCycle x = t := if_pos held
  have waits : t.cycleWaiting = true := by simp [t, State.cycleWaiting, Option.isSome_iff_ne_none.mpr hr]
  rw [kept]
  exact ⟨by simp [State.hwaitLow, waits], rfl⟩

/-- R1: a cycle with no lane, taken. -/
theorem presentCycle_laneless {s : State} {x : HostLines} {c : HostCycle} (h : s.hostTakes) (hx : recognised x = some c)
    (hl : noLane c.lanes = true) : s.presentCycle x = (s.onBus x).takeLaneless c := by
  rw [presentCycle_takes h]
  simp only [State.takeCycle, hx, hl, if_true]
  rfl

theorem writeLines_recognised (a : Addr) (d : Word) (l : Lanes) (oe : Bool) :
    recognised (writeLines a d l oe) = some ⟨true, a, d, l⟩ := by simp [recognised, writeLines]

theorem readLines_recognised (a : Addr) (l : Lanes) (d : Word) :
    recognised (readLines a l d) = some ⟨false, a, d, l⟩ := by simp [recognised, readLines]

/-- Settles O13: cycles that wait, cycles that are held, and cycles with no lane or at their end. -/
theorem cyclesAreHeldTakenAndEnded : Obligations.CyclesAreHeldTakenAndEnded := by
  refine ⟨?_, ?_, ?_⟩
  · intro s h ht hd taken
    refine ⟨fun a d l oe hx => ?_, fun a l hx => ?_⟩
    · refine waiting_cycle_taken h (by simp [hx, writeLines_recognised]) ht hd ?_
      exact congrArg (fun x => Host.Outcome.next (s.presentCycle x)) hx.symm
    · refine waiting_cycle_taken h (by rw [hx]; simp [readLines_recognised]) ht hd ?_
      exact congrArg (fun x => Host.Outcome.next (s.presentCycle x)) hx.symm
  · rintro s c x (⟨a, d, l, oe, rfl, rfl⟩ | ⟨a, l, rfl, rfl⟩) h
    · exact ⟨_, rfl, presentCycle_holds (by simp [writeLines_recognised]) h⟩
    · exact ⟨_, rfl, presentCycle_holds (by simp [readLines_recognised]) h⟩
  · intro s a d oe
    refine ⟨fun h => ⟨?_, ?_⟩, rfl⟩
    · exact congrArg Host.Outcome.next (presentCycle_laneless h (writeLines_recognised a d _ oe) rfl)
    · exact congrArg Host.Outcome.next (presentCycle_laneless h (readLines_recognised a _ s.pins.host.data) rfl)

/-! ## Completions (R9, R18, R68, R71, R140) -/

/-- R140: the completion of the host port's access in flight. -/
theorem exec_hostAccessCompletion {s : State} {x : Access} (h : s.port.inFlight = some ⟨.host, x⟩) :
    exec .hostAccessCompletion s = .next ((s.landed x).finishHostAccess (readWord s.mem x.addr)) := by
  show Host.Outcome.next s.hostCompletion = _
  rw [State.hostCompletion, flightOf_eq h]

/-- Settles O14: the write lands and the access that made it ends. -/
theorem hostWriteLandsAndCompletes : Obligations.HostWriteLandsAndCompletes := by
  intro s a l d hm hf
  have lands := writeLanes_stored hm a l d
  rw [exec_hostAccessCompletion hf, landed_write]
  refine ⟨fun ha => ⟨_, lands, ?_⟩, fun h ha hs hw => ⟨_, lands, ?_⟩⟩
  · simp only [State.finishHostAccess, State.portDone, ha]
  · have waits : (s.portDone (writeLanes s.mem a l d)).slotAwaiting .port = some h := slotAwaiting_some hs hw
    simp only [State.finishHostAccess, waits, show (s.portDone (writeLanes s.mem a l d)).host.access = none from ha,
      Option.isSome_some, if_true]
    rfl

/-- R2: the cycle of the access in progress is still on the bus. -/
theorem cycleLive_iff (s : State) : s.cycleLive = true ↔
    s.pins.host.ce = true ∧ (s.pins.host.we = true ∨ s.pins.host.oe = true) ∧ s.host.cycleTaken = true := by
  simp only [State.cycleLive, recognised, Bool.and_eq_true, ← Bool.or_eq_true]
  split <;> simp_all

/-- R68: the lanes memory gives join the lanes found. -/
theorem pickLanes_readWord (m : Memory) (a : Addr) (need : Lanes) (found : Word) :
    pickLanes need (readWord m a) found = joinBytes (if need.upper then readByte m (2 * a.toNat + 1) else upperByte found)
      (if need.lower then readByte m (2 * a.toNat) else lowerByte found) := by
  rw [pickLanes, readWord, upperByte_joinBytes, lowerByte_joinBytes]
  rfl

/-- Settles O15: the word is driven while the read's cycle lasts. -/
theorem hostReadCompletes : Obligations.HostReadCompletes := by
  intro s a l claimed need found hf ha live word t
  have live_iff : t.cycleLive = true ↔ live := cycleLive_iff t
  have finish : exec .hostAccessCompletion s = .next (t.finishRead found need (readWord s.mem a)) := by
    rw [exec_hostAccessCompletion hf, landed_read]
    simp only [State.finishHostAccess, State.portDone, ha, t]
  rw [finish]
  refine ⟨fun h => ?_, fun h => ?_⟩
  · simp only [State.finishRead, live_iff.mpr h, if_true, pickLanes_readWord]
    rfl
  · simp only [State.finishRead, Bool.eq_false_iff.mpr (fun e => h (live_iff.mp e))]
    rfl

/-! ## Timers (R15, R28, R75, R76) -/

/-- R146: the timebase leaves the held-write slot and the context. -/
theorem advance_slot (s : State) (n : Nat) : (s.advance n).host.slot = s.host.slot := by
  unfold State.advance
  split <;> rfl

theorem advance_context (s : State) (n : Nat) : (s.advance n).txn.context = s.txn.context := by
  unfold State.advance
  split <;> rfl

/-- R75: when the hold timer can expire. -/
theorem holdTimerArmed_iff (s : State) :
    s.holdTimerArmed = true ↔ s.controllerWorks ∧ s.host.holdTimer.running = true ∧ s.mgmt.config.holdLimit ≠ 0 := by
  have works : s.start.part.working = true ↔ s.controllerWorks := by
    refine ⟨fun h => ?_, working_of_controllerWorks⟩
    by_contra hc
    rw [not_working_of_not_controllerWorks hc] at h
    cases h
  simp only [State.holdTimerArmed, Bool.and_eq_true, decide_eq_true_eq, works, and_assoc]

/-- R76: the hold ends for a write that awaits the hold condition. -/
theorem expireHold_holdCondition {s : State} {h : HeldWrite} (hs : s.host.slot = some h) (hw : h.awaits = .holdCondition) :
    s.expireHold = s.slotEmptied.withRefused .holdExpired h.addr h.entry := by
  simp only [State.expireHold, hs, hw]
  rfl

/-- R28: the hold ends for a write that awaits a bank, and the transaction is voided with NO_SLOT. -/
theorem expireHold_bank {s : State} {h : HeldWrite} (hs : s.host.slot = some h) (hw : h.awaits = .bank)
    (hc : s.txn.context = .slotWait) :
    s.expireHold = (s.slotEmptied.withRefused .holdExpired h.addr h.entry).voidedWaiting .noSlot := by
  simp only [State.expireHold, hs, hw]
  exact voidTxn_slotWait (s := s.slotEmptied.withRefused .holdExpired h.addr h.entry) hc rfl .noSlot

/-- R75, R76: HOLD_EXPIRED where the timer is armed. -/
theorem exec_holdExpired_armed {s : State} (h : s.holdTimerArmed = true) :
    exec .holdExpired s = .next (s.advance s.holdTimeLeft).expireHold := congrArg Host.Outcome.next (if_pos h)

theorem exec_holdExpired_unarmed {s : State} (h : ¬s.holdTimerArmed = true) : exec .holdExpired s = .next s :=
  congrArg Host.Outcome.next (if_neg h)

/-- R15: REFUSAL_PULSE_END with no pulse in progress, with one, and in HALTED. -/
theorem pulseEnd_none {s : State} (h : s.host.pulse = none) : s.pulseEnd = s := by
  simp only [State.pulseEnd, h]

theorem pulseEnd_ends {s : State} {left : Nat} (h : s.host.pulse = some left) (hp : s.start.part ≠ .halted) :
    s.pulseEnd = { s.advance left with host := { (s.advance left).host with pulse := none } } := by
  simp only [State.pulseEnd, h, if_neg hp]

theorem pulseEnd_halted {s : State} (hp : s.start.part = .halted) : s.pulseEnd = s := by
  unfold State.pulseEnd
  split
  · rw [if_pos hp]
  · rfl

/-- Settles O16: HOLD_EXPIRED armed and unarmed, then REFUSAL_PULSE_END. -/
theorem timersOfTheHostPort : Obligations.TimersOfTheHostPort := by
  intro s
  refine ⟨?_, ?_, fun hp => congrArg Host.Outcome.next (pulseEnd_none hp), fun left hp =>
    ⟨fun hh => congrArg Host.Outcome.next (pulseEnd_ends hp hh), fun hh => congrArg Host.Outcome.next (pulseEnd_halted hh)⟩⟩
  · intro h hw hs hr hl t
    have armed := exec_holdExpired_armed ((holdTimerArmed_iff s).mpr ⟨hw, hr, hl⟩)
    have slot : t.host.slot = some h := (advance_slot s _).trans hs
    exact ⟨fun ha => armed.trans (congrArg Host.Outcome.next (expireHold_holdCondition slot ha)),
      fun ha hc => armed.trans (congrArg Host.Outcome.next (expireHold_bank slot ha ((advance_context s _).trans hc)))⟩
  · intro h
    refine exec_holdExpired_unarmed (fun e => ?_)
    obtain ⟨hw, hr, hl⟩ := (holdTimerArmed_iff s).mp e
    rcases h with h | h | h
    · exact h hw
    · rw [hr] at h
      cases h
    · exact hl h

end Sys2Proof.Machine
end

section
/-! The bounded numbers and the halt flag (R15, R29, R75, R138, R140, R145, R157, R164, R175): what each operation does to
them, operation by operation, and O56. -/

namespace Sys2Proof.Machine

/-! ## What the invariant reads -/

/-- The numbers `State.bounded` speaks of, and what `State.haltSound` compares. -/
structure Numbers where
  queued     : Nat
  dropped    : Nat
  refused    : Nat
  openMillis : Nat
  holdMicros : Nat
  pulse      : Option Nat
  burstLimit : Nat
  burst      : Nat
  resets     : Nat
  replayed   : Nat
  invalid    : Nat
  halt       : Bool
  part       : PartState

/-- The numbers of a state. -/
def State.numbers (s : State) : Numbers where
  queued     := s.mgmt.queue.length
  dropped    := s.mgmt.dropped
  refused    := s.txn.refused
  openMillis := s.txn.openTimer.millis
  holdMicros := s.host.holdTimer.micros
  pulse      := s.host.pulse
  burstLimit := s.mgmt.config.burstLimit
  burst      := s.port.burst
  resets     := s.start.report.resets
  replayed   := s.start.report.replayed
  invalid    := s.start.report.copiesInvalid
  halt       := s.port.halt
  part       := s.start.part

/-- The numbers are in their ranges, and the halt flag is set exactly in HALTED. -/
structure Numbers.InRange (n : Numbers) : Prop where
  queued     : n.queued ≤ 16
  dropped    : n.dropped ≤ 255
  refused    : n.refused ≤ 65535
  openMillis : n.openMillis ≤ 65535
  holdMicros : n.holdMicros ≤ 65535
  pulse      : ∀ k, n.pulse = some k → k ≤ 100
  burstLow   : 1 ≤ n.burstLimit
  burstHigh  : n.burstLimit ≤ 64
  burst      : n.burst ≤ 64
  resets     : n.resets ≤ 255
  replayed   : n.replayed ≤ 65535
  invalid    : n.invalid ≤ 2
  halt       : n.halt = true ↔ n.part = .halted

/-- A state whose numbers are in range. -/
abbrev State.inRange (s : State) : Prop := s.numbers.InRange

theorem inRange_iff (s : State) : s.inRange ↔ s.bounded ∧ s.haltSound := by
  constructor
  · intro h
    exact ⟨⟨h.queued, h.dropped, h.refused, h.openMillis, h.holdMicros, h.pulse, h.burstLow, h.burstHigh, h.burst,
      h.resets, h.replayed, h.invalid⟩, h.halt⟩
  · rintro ⟨⟨h1, h2, h3, h4, h5, h6, h7, h8, h9, h10, h11, h12⟩, h13⟩
    exact ⟨h1, h2, h3, h4, h5, h6, h7, h8, h9, h10, h11, h12, h13⟩

/-- The numbers stay in range where they stay as they were. -/
theorem inRange_of_numbers {s t : State} (h : s.inRange) (e : t.numbers = s.numbers) : t.inRange := by
  rwa [State.inRange, e]

/-- R140: a part state outside HALTED follows another one. -/
theorem Numbers.InRange.enters {n : Numbers} (h : n.InRange) (hn : n.part ≠ .halted) {p : PartState} (hp : p ≠ .halted) :
    ({ n with part := p } : Numbers).InRange :=
  { h with halt := ⟨fun e => absurd (h.halt.mp e) hn, fun e => absurd e hp⟩ }

/-! ## Banks, claims and completions: nothing here is a number -/

@[simp] theorem setBank_numbers (s : State) (b : BankId) (k : Bank) : (s.setBank b k).numbers = s.numbers := by
  cases b <;> rfl

@[simp] theorem landed_numbers (s : State) (x : Access) : (s.landed x).numbers = s.numbers := rfl

theorem setBank_inRange {s : State} (h : s.inRange) (b : BankId) (k : Bank) : (s.setBank b k).inRange :=
  inRange_of_numbers h (setBank_numbers s b k)

theorem promoteIn_numbers (s : State) (b : BankId) (a : Addr) : (s.promoteIn b a).numbers = s.numbers := by
  obtain ⟨k, _, e⟩ := promoteIn_spec s b a
  rw [e, setBank_numbers]

theorem requestWrite_numbers (s : State) : s.requestWrite.numbers = s.numbers := by
  unfold State.requestWrite
  split <;> rfl

/-! ## Offers, counts and voids (R14, R15, R24, R175) -/

/-- R175: at most 16 records are held, and the dropped count stays at 255. -/
theorem offer_inRange {s : State} (h : s.inRange) (r : FaultRecord) : (s.offer r).inRange := by
  unfold State.offer ManagementPort.offer
  split
  · rename_i hq
    have length : (s.mgmt.queue ++ [r]).length ≤ 16 := by
      rw [List.length_append]
      exact hq
    exact { h with queued := length }
  · exact { h with dropped := Nat.min_le_left _ _ }

theorem countSilent_inRange {s : State} (h : s.inRange) : s.countSilent.inRange :=
  { h with refused := Nat.min_le_left _ _ }

theorem refuseWaiting_inRange {s : State} (h : s.inRange) : s.refuseWaiting.inRange := by
  unfold State.refuseWaiting
  split
  · exact countSilent_inRange (s := s.clearSlot) h
  · exact h

/-- R29: where the open timer is stopped at 0. -/
theorem stopTimer_inRange {s : State} (h : s.inRange) (c : Context) :
    ({ s with txn := { s.txn with context := c, openTimer := .stopped } } : State).inRange :=
  { h with openMillis := Nat.zero_le _ }

theorem voidTxn_inRange {s : State} (h : s.inRange) (r : VoidReason) : (s.voidTxn r).inRange := by
  unfold State.voidTxn
  split
  · rename_i b _
    cases b <;> exact stopTimer_inRange h _
  · exact refuseWaiting_inRange (stopTimer_inRange h _)
  · exact h
  · exact h

/-- R15: a refusal pulse starts with 100 µs. -/
theorem startPulse_inRange {s : State} (h : s.inRange) : s.startPulse.inRange :=
  voidTxn_inRange (s := { s with host := { s.host with pulse := some Config.pulseMicros } })
    { h with pulse := fun _ e => Nat.le_of_eq (Option.some.inj e).symm } _

theorem refusalAction_inRange {s : State} (h : s.inRange) (x : RefusalAction) : (s.refusalAction x).inRange := by
  cases x with
  | drop => exact h
  | dropAndReset => exact startPulse_inRange h

theorem refuse_inRange {s : State} (h : s.inRange) (c : Reason) (a : Addr) (k : Classified) : (s.refuse c a k).inRange :=
  refusalAction_inRange (offer_inRange h _) _

theorem refuseLocked_inRange {s : State} (h : s.inRange) (a : Addr) (k : Classified) : (s.refuseLocked a k).inRange :=
  refusalAction_inRange (voidTxn_inRange (offer_inRange h _) _) _

/-! ## Taking a cycle (R1 to R18) -/

theorem capture_inRange {s : State} (h : s.inRange) (b : BankId) (a : Addr) (d : Word) (l : Lanes) :
    (s.capture b a d l).inRange := by
  unfold State.capture
  split
  · exact setBank_inRange h _ _
  · exact countSilent_inRange (voidTxn_inRange h _)

/-- R75: the hold timer starts from 0. -/
theorem holdWrite_inRange {s : State} (h : s.inRange) (x : HeldWrite) : (s.holdWrite x).inRange :=
  { h with holdMicros := Nat.zero_le _ }

theorem passOrHold_inRange {s : State} (h : s.inRange) (c : HostCycle) (k : Classified) : (s.passOrHold c k).inRange := by
  unfold State.passOrHold
  split
  · exact inRange_of_numbers (holdWrite_inRange h _) (by rw [promoteIn_numbers, promoteIn_numbers])
  · exact h

theorem routePlain_inRange {s : State} (h : s.inRange) (c : HostCycle) (k : Classified) : (s.routePlain c k).inRange := by
  unfold State.routePlain
  split
  · exact passOrHold_inRange h c k
  · exact capture_inRange h _ _ _ _
  · exact holdWrite_inRange h _
  · exact countSilent_inRange h

theorem routeJournaled_inRange {s : State} (h : s.inRange) (c : HostCycle) (k : Classified) :
    (s.routeJournaled c k).inRange := by
  unfold State.routeJournaled
  split
  · exact refuse_inRange h _ _ _
  · exact capture_inRange h _ _ _ _
  · exact holdWrite_inRange h _
  · exact countSilent_inRange h

theorem routeWrite_inRange {s : State} (h : s.inRange) (c : HostCycle) (k : Classified) : (s.routeWrite c k).inRange := by
  unfold State.routeWrite
  split
  · exact refuse_inRange h _ _ _
  · exact refuse_inRange h _ _ _
  · exact refuse_inRange h _ _ _
  · exact refuseLocked_inRange h _ _
  · exact routeJournaled_inRange h c k
  · exact routePlain_inRange h c k

theorem takeWrite_inRange {s : State} (h : s.inRange) (c : HostCycle) : (s.takeWrite c).inRange := by
  unfold State.takeWrite
  split
  · exact countSilent_inRange h
  · exact routeWrite_inRange h c _
  · exact routeWrite_inRange h c _
  · exact routeWrite_inRange h c _

theorem forward_numbers (s : State) (c : HostCycle) : (s.forward c).numbers = s.numbers := by
  unfold State.forward
  dsimp only
  split <;> rfl

theorem takeRead_inRange {s : State} (h : s.inRange) (c : HostCycle) : (s.takeRead c).inRange := by
  unfold State.takeRead
  split
  · exact offer_inRange (s := s.drive 0xFFFF) h _
  · split
    · exact h
    · exact inRange_of_numbers h (forward_numbers s c)

theorem takeLaneless_numbers (s : State) (c : HostCycle) : (s.takeLaneless c).numbers = s.numbers := by
  unfold State.takeLaneless
  split <;> rfl

theorem takeCycle_inRange {s : State} (h : s.inRange) : s.takeCycle.inRange := by
  unfold State.takeCycle
  split
  · exact h
  · rename_i c _
    let t : State := { s with host := { s.host with cycleTaken := true } }
    have ht : t.inRange := h
    dsimp only
    split
    · exact inRange_of_numbers ht (takeLaneless_numbers t c)
    · split
      · exact takeWrite_inRange ht c
      · exact takeRead_inRange ht c

theorem takeWaiting_inRange {s : State} (h : s.inRange) : s.takeWaiting.inRange := by
  unfold State.takeWaiting
  split
  · exact takeCycle_inRange h
  · exact h

theorem presentCycle_inRange {s : State} (h : s.inRange) (x : HostLines) : (s.presentCycle x).inRange := by
  let t : State := { s with pins := { s.pins with host := x }, host := { s.host with cycleTaken := false, driven := none } }
  have ht : t.inRange := h
  unfold State.presentCycle
  dsimp only
  split
  · exact ht
  · exact takeCycle_inRange ht

/-! ## A bank becomes FREE (R23, R71) -/

theorem openOn_inRange {s : State} (h : s.inRange) (b : BankId) : (s.openOn b).inRange := by
  cases b <;> exact h

theorem captureHeld_inRange {s : State} (h : s.inRange) (b : BankId) : (s.captureHeld b).inRange := by
  unfold State.captureHeld
  split
  · exact capture_inRange (s := s.clearSlot) h _ _ _ _
  · exact h

theorem openWaiting_inRange {s : State} (h : s.inRange) : s.openWaiting.inRange := by
  unfold State.openWaiting
  split
  · split
    · exact captureHeld_inRange (openOn_inRange h _) _
    · exact h
  · exact h

theorem examineHold_numbers (s : State) : s.examineHold.numbers = s.numbers := by
  unfold State.examineHold
  split
  · split <;> rfl
  · rfl

/-! ## TXN and ABT (R22, R25, R31 to R36) -/

theorem riseContext_inRange {s : State} (h : s.inRange) : s.riseContext.inRange := by
  unfold State.riseContext
  split
  · split
    · exact openOn_inRange h _
    · exact h
  · exact h
  · exact stopTimer_inRange h _
  · exact h
  · exact h
  · exact h

theorem rise_inRange {s : State} (h : s.inRange) : s.rise.inRange := by
  let t : State := { s with pins := { s.pins with txnHigh := true } }
  have begun : t.riseBegins.inRange := { h with openMillis := Nat.zero_le _ }
  unfold State.rise
  dsimp only
  split
  · unfold State.pulseNotice
    split
    · exact voidTxn_inRange (riseContext_inRange begun) _
    · exact riseContext_inRange begun
  · exact h

theorem conclude_inRange {s : State} (h : s.inRange) (r : OutcomeRecord) : (s.conclude r).inRange :=
  { h with openMillis := Nat.zero_le _, refused := Nat.zero_le _ }

theorem failRelease_inRange {s : State} (h : s.inRange) (r : Reason) (n k : Nat) : (s.failRelease r n k).inRange :=
  inRange_of_numbers
    (offer_inRange (conclude_inRange h ⟨.failed, some r, none, some n, some k⟩)
      ⟨.transactionFailed, some r, none, none, none, s.start.clock.millis⟩) rfl

theorem accept_inRange {s : State} (h : s.inRange) (b : BankId) : (s.accept b).inRange := by
  cases b <;> exact conclude_inRange h ⟨.accepted, none, some s.txn.nextSeq, none, some 0⟩

theorem releaseOpen_inRange {s : State} (h : s.inRange) (b : BankId) : (s.releaseOpen b).inRange := by
  have emptied : (s.setBank b .empty).inRange := setBank_inRange h _ _
  unfold State.releaseOpen
  dsimp only
  split
  · exact conclude_inRange emptied _
  · split
    · exact failRelease_inRange emptied _ _ _
    · split
      · exact failRelease_inRange emptied _ _ _
      · exact accept_inRange h b

theorem releaseWaiting_inRange {s : State} (h : s.inRange) : s.releaseWaiting.inRange := by
  unfold State.releaseWaiting
  split
  · exact failRelease_inRange (offer_inRange (s := s.clearSlot) h _) _ _ _
  · exact conclude_inRange h _

theorem releaseTaken_inRange {s : State} (h : s.inRange) : s.releaseTaken.inRange := by
  unfold State.releaseTaken
  split
  · exact releaseOpen_inRange h _
  · exact releaseWaiting_inRange h
  · exact failRelease_inRange h _ _ _
  · exact h

theorem fall_inRange {s : State} (h : s.inRange) : s.fall.inRange := by
  let t : State := { s with pins := { s.pins with txnHigh := false } }
  have ht : t.inRange := h
  unfold State.fall
  dsimp only
  split
  · exact releaseTaken_inRange ht
  · exact ht

theorem abort_inRange {s : State} (h : s.inRange) : s.abort.inRange := by
  unfold State.abort
  split
  · exact voidTxn_inRange h _
  · exact h

/-! ## The timebase (R15, R28 to R30, R75, R76, R146) -/

/-- R29: the open timer stays at 65,535 ms. -/
theorem OpenTimer.advance_millis {t : OpenTimer} (h : t.millis ≤ 65535) (n : Nat) : (t.advance n).millis ≤ 65535 := by
  unfold OpenTimer.advance
  split
  · show min (65535 * 1000) _ / 1000 ≤ 65535
    omega
  · exact h

/-- R75: the hold timer stays at 65,535 µs. -/
theorem HoldTimer.advance_micros {t : HoldTimer} (h : t.micros ≤ 65535) (n : Nat) : (t.advance n).micros ≤ 65535 := by
  unfold HoldTimer.advance
  split
  · exact Nat.min_le_left _ _
  · exact h

theorem advance_inRange {s : State} (h : s.inRange) (n : Nat) : (s.advance n).inRange := by
  unfold State.advance
  split
  · exact h
  · refine { h with
      openMillis := OpenTimer.advance_millis h.openMillis n
      holdMicros := HoldTimer.advance_micros h.holdMicros n
      pulse := fun k e => ?_ }
    obtain ⟨left, hl, rfl⟩ := Option.map_eq_some_iff.mp e
    exact (Nat.sub_le left n).trans (h.pulse left hl)

theorem expireHold_inRange {s : State} (h : s.inRange) : s.expireHold.inRange := by
  unfold State.expireHold
  split
  · rename_i x _
    have refused : (s.clearSlot.offerRefused .holdExpired x.addr x.entry).inRange := offer_inRange (s := s.clearSlot) h _
    dsimp only
    split
    · exact refused
    · exact voidTxn_inRange refused _
    · exact h
  · exact h

theorem holdExpiry_inRange {s : State} (h : s.inRange) : s.holdExpiry.inRange := by
  unfold State.holdExpiry
  split
  · exact expireHold_inRange (advance_inRange h _)
  · exact h

theorem openExpiry_inRange {s : State} (h : s.inRange) : s.openExpiry.inRange := by
  unfold State.openExpiry
  split
  · exact voidTxn_inRange (advance_inRange h _) _
  · exact h

theorem pulseEnd_inRange {s : State} (h : s.inRange) : s.pulseEnd.inRange := by
  unfold State.pulseEnd
  split
  · split
    · exact h
    · exact { advance_inRange h _ with pulse := fun _ e => nomatch e }
  · exact h

theorem tick_inRange {s : State} (h : s.inRange) : s.tick.inRange := by
  have pulse : (s.advance 1).pulseDue.inRange := by
    unfold State.pulseDue
    split
    · exact pulseEnd_inRange (advance_inRange h 1)
    · exact advance_inRange h 1
  have hold : (s.advance 1).pulseDue.holdDue.inRange := by
    unfold State.holdDue
    split
    · exact holdExpiry_inRange pulse
    · exact pulse
  unfold State.tick State.openDue
  split
  · exact openExpiry_inRange hold
  · exact hold

theorem idleStep_inRange {s : State} (h : s.inRange) : s.idleStep.inRange := by
  unfold State.idleStep
  split
  · exact takeCycle_inRange h
  · exact tick_inRange h

/-! ## Claims and grants (R135 to R138) -/

theorem claimLog_numbers (s : State) : s.claimLog.numbers = s.numbers := by
  unfold State.claimLog
  split
  · split <;> rfl
  · rfl

theorem claimAnchor_numbers (s : State) : s.claimAnchor.numbers = s.numbers := by
  unfold State.claimAnchor
  split
  · split <;> rfl
  · rfl

theorem claimStartup_numbers (s : State) : s.claimStartup.numbers = s.numbers := by
  unfold State.claimStartup
  split
  · split <;> rfl
  · rfl

theorem nextClaim_inRange {s : State} (h : s.inRange) (who : Claimant) : (s.nextClaim who).inRange := by
  unfold State.nextClaim
  split
  · cases who with
    | log => exact inRange_of_numbers h (claimLog_numbers s)
    | anchor => exact inRange_of_numbers h (claimAnchor_numbers s)
    | startup => exact inRange_of_numbers h (claimStartup_numbers s)
    | host => exact takeWaiting_inRange h
    | apply => exact h
  · exact h

/-- R137: an engine's claim waits and the host wins only below the burst limit. -/
theorem grantee_host {s : State} (h : s.grantee = some .host) (he : s.port.waiting.engine.isSome = true) :
    s.port.burst < s.mgmt.config.burstLimit := by
  have not_host : s.port.waiting.engine ≠ some .host := by
    unfold Claims.engine
    split_ifs <;> simp
  unfold State.grantee at h
  dsimp only at h
  split at h
  · cases h
  · split at h
    · rename_i hh
      simp only [Bool.and_eq_true, Bool.or_eq_true, decide_eq_true_eq] at hh
      rcases hh.2 with hn | hlt
      · rw [Option.isNone_iff_eq_none.mp hn] at he
        cases he
      · exact hlt
    · exact absurd h not_host

/-- R138: the host burst count stays within the burst limit. -/
theorem burstAfter_le {s : State} {who : Claimant} (h : s.grantee = some who) (hb : s.mgmt.config.burstLimit ≤ 64) :
    s.burstAfter who ≤ 64 := by
  unfold State.burstAfter
  split
  · rename_i hw
    have := grantee_host (hw.1 ▸ h) hw.2
    omega
  · exact Nat.zero_le _

theorem grantable_grantee {s : State} {f : InFlight} (h : s.grantable = some f) : s.grantee = some f.who := by
  unfold State.grantable at h
  split at h
  · cases h
  · split at h
    · rename_i who hw
      obtain ⟨x, _, rfl⟩ := Option.map_eq_some_iff.mp h
      exact hw
    · cases h

theorem execGrant_inRange {s t : State} (h : s.inRange) (e : execGrant s = .next t) : t.inRange := by
  unfold execGrant at e
  split at e
  · rename_i f hf
    split at e
    · cases e
      exact { h with burst := burstAfter_le (grantable_grantee hf) h.burstHigh }
    · cases e
  · cases e
    exact h

/-! ## The completions of the engines (R92, R94, R101 to R105) -/

theorem hostCompletion_numbers (s : State) : s.hostCompletion.numbers = s.numbers := by
  unfold State.hostCompletion
  split
  · unfold State.finishHostAccess
    split
    · rfl
    · rfl
    · split <;> rfl
  · rfl

theorem takeForLog_numbers (s : State) (b : BankId) : (s.takeForLog b).numbers = s.numbers := by cases b <;> rfl
theorem durable_numbers (s : State) (b : BankId) : (s.durable b).numbers = s.numbers := by cases b <;> rfl
theorem takeForApply_numbers (s : State) (b : BankId) : (s.takeForApply b).numbers = s.numbers := by cases b <;> rfl

theorem logTake_numbers (s : State) : s.logTake.numbers = s.numbers := by
  unfold State.logTake
  split
  · split
    · split
      · exact takeForLog_numbers s _
      · rfl
    · rfl
  · rfl

theorem imageCompletion_numbers (s : State) : s.imageCompletion.numbers = s.numbers := by
  unfold State.imageCompletion
  split
  · split
    · split
      · unfold State.imageWordDone
        split
        · rw [durable_numbers, landed_numbers]
        · rfl
      · rfl
    · rfl
  · rfl

theorem promoteHeld_numbers (s : State) (b : BankId) : (s.promoteHeld b).numbers = s.numbers := by
  unfold State.promoteHeld
  split
  · exact promoteIn_numbers s _ _
  · rfl

theorem applyTake_numbers (s : State) : s.applyTake.numbers = s.numbers := by
  unfold State.applyTake
  split
  · split
    · split
      · rw [promoteHeld_numbers, takeForApply_numbers]
      · rfl
    · rfl
  · rfl

theorem applyChoice_numbers (s : State) : s.applyChoice.numbers = s.numbers := by
  unfold State.applyChoice
  repeat' split
  all_goals rfl

theorem retire_numbers (s : State) (b : BankId) : (s.retire b).numbers = s.numbers := by
  unfold State.retire
  dsimp only
  rw [requestWrite_numbers]
  cases b <;> rfl

theorem homeWriteDone_numbers (s : State) (b : BankId) (i : Nat) : (s.homeWriteDone b i).numbers = s.numbers := by
  have done (k : Bank) : ({ s.setBank b k with apply := { s.apply with inFlight := none } } : State).numbers = s.numbers := by
    cases b <;> rfl
  unfold State.homeWriteDone
  dsimp only
  split
  · rw [retire_numbers, done]
  · exact done _

theorem homeCompletion_numbers (s : State) : s.homeCompletion.numbers = s.numbers := by
  unfold State.homeCompletion
  split
  · split
    · split
      · rw [homeWriteDone_numbers, landed_numbers]
      · rfl
    · rfl
    · rfl
  · rfl

/-! ## The end of a start-up (R40, R159) -/

theorem handOver_inRange {s : State} (h : s.inRange) (hs : s.start.part ≠ .halted) {p : PartState} (hp : p ≠ .halted) :
    (s.handOver p).inRange :=
  { h.enters hs hp with openMillis := Nat.zero_le _ }

theorem endStartup_inRange {s : State} (h : s.inRange) (hs : s.start.part ≠ .halted) {p : PartState} (hp : p ≠ .halted) :
    (s.endStartup p).inRange := by
  unfold State.endStartup
  split
  · exact takeCycle_inRange (handOver_inRange h hs hp)
  · exact handOver_inRange h hs hp

/-! ## The anchor writer (R120 to R130) -/

theorem retireBank_numbers (s : State) (b : BankId) : (s.retireBank b).numbers = s.numbers := by
  unfold State.retireBank
  split
  · cases b <;> rfl
  · rfl

theorem retireCovered_numbers (s : State) (w : AnchorWrite) : (s.retireCovered w).numbers = s.numbers := by
  unfold State.retireCovered
  dsimp only
  split <;> split <;> simp only [retireBank_numbers]

/-- R129: the part enters RUN from outside HALTED. -/
theorem formatWriteDone_inRange {s : State} (h : s.inRange) (hs : s.start.part ≠ .halted) : s.formatWriteDone.inRange := by
  unfold State.formatWriteDone
  split
  · split
    · exact h.enters hs (p := .run) (by decide)
    · exact h
    · exact h
    · exact h
  · exact h

theorem carriedDone_inRange {s : State} (h : s.inRange) (hs : s.start.part ≠ .halted) (w : AnchorWrite) :
    (s.carriedDone w).inRange := by
  unfold State.carriedDone
  split
  · exact h
  · exact formatWriteDone_inRange h hs
  · exact h

theorem closingDone_inRange {s : State} (h : s.inRange) : s.closingDone.inRange := by
  unfold State.closingDone
  split
  · rename_i hp
    exact endStartup_inRange h (by rw [hp]; decide) (by decide)
  · exact h

theorem completeWrite_inRange {s : State} (h : s.inRange) (hs : s.start.part ≠ .halted) (w : AnchorWrite) :
    (s.completeWrite w).inRange := by
  have retired : ((s.writeDone w).retireCovered w).inRange :=
    inRange_of_numbers (s := s.writeDone w) h (retireCovered_numbers _ w)
  have carried := carriedDone_inRange retired (by rwa [State.retireCovered_start]) w
  exact closingDone_inRange (inRange_of_numbers (openWaiting_inRange carried) (examineHold_numbers _))

theorem anchorCompletion_inRange {s : State} (h : s.inRange) : s.anchorCompletion.inRange := by
  unfold State.anchorCompletion
  split
  · rename_i x w _ _
    have landed : (s.landed x).inRange := h
    split
    · rename_i hw
      have not_halted : s.start.part ≠ .halted := fun e => by rw [e] at hw; cases hw
      unfold State.anchorWordDone
      split
      · exact completeWrite_inRange landed not_halted w
      · exact landed
    · exact landed
  · exact h
  · exact h

theorem pendingStart_numbers (s : State) : s.pendingStart.numbers = s.numbers := by
  unfold State.pendingStart
  split <;> rfl

theorem clearCompletion_numbers (s : State) : s.clearCompletion.numbers = s.numbers := by
  unfold State.clearCompletion
  split
  · split <;> rfl
  · rfl
  · rfl

theorem secondStart_numbers (s : State) : s.secondStart.numbers = s.numbers := by
  unfold State.secondStart
  split
  · split <;> rfl
  · rfl

/-! ## Halts and resets (R140, R144, R145, R157) -/

theorem enterHalted_inRange {s : State} (h : s.inRange) : s.enterHalted.inRange :=
  { h with halt := ⟨fun _ => rfl, fun _ => rfl⟩ }

theorem pfwFall_inRange {s : State} (h : s.inRange) : s.pfwFall.inRange := by
  let t : State := { s with pins := { s.pins with pfwHigh := false } }
  have ht : t.inRange := h
  unfold State.pfwFall
  dsimp only
  split
  · exact enterHalted_inRange ht
  · exact ht

theorem resetsAfter_le (cause : ResetCause) (n : Nat) : resetsAfter cause n ≤ 255 := by
  unfold resetsAfter
  split
  · exact Nat.zero_le _
  · exact Nat.min_le_left _ _

/-- R145, R175: a reset sets every number but the queue's length and the dropped count, which it keeps or sets to 0. -/
theorem resetBy_inRange {s : State} (h : s.inRange) (cause : ResetCause) (x : Straps) : (s.resetBy cause x).inRange := by
  have mgmt : (s.mgmt.afterReset cause x.adr).queue.length ≤ 16 ∧ (s.mgmt.afterReset cause x.adr).dropped ≤ 255 ∧
      (s.mgmt.afterReset cause x.adr).config = .reset := by
    unfold ManagementPort.afterReset
    split
    · exact ⟨Nat.zero_le _, Nat.zero_le _, rfl⟩
    · exact ⟨h.queued, h.dropped, rfl⟩
  obtain ⟨hq, hd, hc⟩ := mgmt
  have limit : (s.mgmt.afterReset cause x.adr).config.burstLimit = 8 := by rw [hc]; rfl
  exact {
    queued := hq
    dropped := hd
    refused := Nat.zero_le _
    openMillis := Nat.zero_le _
    holdMicros := Nat.zero_le _
    pulse := fun _ e => nomatch e
    burstLow := limit.ge.trans' (by decide)
    burstHigh := limit.le.trans (by decide)
    burst := Nat.zero_le _
    resets := resetsAfter_le _ _
    replayed := Nat.zero_le _
    invalid := Nat.zero_le _
    halt := ⟨(nomatch ·), (nomatch ·)⟩ }

theorem pfwRise_inRange {s : State} (h : s.inRange) (x : Straps) : (s.pfwRise x).inRange := by
  let t : State := { s with pins := { s.pins with pfwHigh := true } }
  have ht : t.inRange := h
  unfold State.pfwRise
  dsimp only
  split
  · exact resetBy_inRange ht _ _
  · exact ht

/-! ## Start-up and recovery (R147 to R154) -/

theorem endScan_inRange {s : State} (h : s.inRange) (hs : s.start.part ≠ .halted) : s.endScan.inRange := by
  have settled : s.settleScan.inRange := h
  unfold State.endScan
  dsimp only
  split
  · exact inRange_of_numbers settled (requestWrite_numbers _)
  · exact endStartup_inRange settled hs (by decide)

theorem stopScan_inRange {s : State} (h : s.inRange) (hs : s.start.part ≠ .halted) (d : Bool) : (s.stopScan d).inRange := by
  unfold State.stopScan
  split
  · exact endScan_inRange (inRange_of_numbers (offer_inRange h _) rfl) hs
  · exact endScan_inRange h hs

theorem scanHere_inRange {s : State} (h : s.inRange) (hs : s.start.part ≠ .halted) : s.scanHere.inRange := by
  let t : State := { s with start := { s.start with phase := .scan 0 0 0 } }
  have ht : t.inRange := h
  unfold State.scanHere
  dsimp only
  split
  · exact stopScan_inRange ht hs _
  · exact ht

theorem offerCopy_inRange {s : State} (h : s.inRange) (c : Copy) (f : Option Reason) : (s.offerCopy c f).inRange := by
  unfold State.offerCopy
  split
  · exact offer_inRange h _
  · exact h

theorem offerCopy_start (s : State) (c : Copy) (f : Option Reason) : (s.offerCopy c f).start = s.start := by
  unfold State.offerCopy
  split <;> rfl

/-- R148: at most both copies fail. -/
theorem failures_le (f g : Option Reason) : failures f g ≤ 2 := by
  unfold failures
  split <;> split <;> omega

theorem loadCopy_inRange {s : State} (h : s.inRange) (hs : s.start.part ≠ .halted) (c : Copy) (ws : List Word) {n : Nat}
    (hn : n ≤ 2) : (s.loadCopy c ws n).inRange :=
  { h.enters hs (p := .recovery) (by decide) with invalid := hn }

theorem loadCopy_part {s : State} {c : Copy} {ws : List Word} {n : Nat} : (s.loadCopy c ws n).start.part ≠ .halted :=
  fun e => nomatch e

theorem reportUnformatted_inRange {s : State} (h : s.inRange) : s.reportUnformatted.inRange :=
  { h with replayed := Nat.zero_le _, invalid := Nat.le_refl 2 }

theorem chooseAnchor_inRange {s : State} (h : s.inRange) (hs : s.start.part ≠ .halted) (a b : List Word) :
    (s.chooseAnchor a b).inRange := by
  have offered := offerCopy_inRange (offerCopy_inRange h .a (copyFailure s.memSize a)) .b (copyFailure s.memSize b)
  have part : ((s.offerCopy .a (copyFailure s.memSize a)).offerCopy .b (copyFailure s.memSize b)).start.part ≠ .halted := by
    rwa [offerCopy_start, offerCopy_start]
  unfold State.chooseAnchor
  dsimp only
  split
  · exact scanHere_inRange (loadCopy_inRange offered part _ _ (failures_le _ _)) loadCopy_part
  · exact scanHere_inRange (loadCopy_inRange offered part _ _ (failures_le _ _)) loadCopy_part
  · exact endStartup_inRange (reportUnformatted_inRange offered) part (by decide)

theorem endAnchorReads_inRange {s : State} (h : s.inRange) (hs : s.start.part ≠ .halted) (ws : List Word) :
    (s.endAnchorReads ws).inRange := by
  unfold State.endAnchorReads
  split
  · exact chooseAnchor_inRange h hs _ _
  · exact enterHalted_inRange (s := { s with start := { s.start with phase := .done } }) h

theorem anchorReadDone_inRange {s : State} (h : s.inRange) : s.anchorReadDone.inRange := by
  unfold State.anchorReadDone
  split
  · rename_i x words _ _
    have landed : (s.landed x).inRange := h
    split
    · rename_i hp
      have not_halted : s.start.part ≠ .halted := by rw [hp]; decide
      unfold State.anchorWordRead
      split
      · exact endAnchorReads_inRange landed not_halted _
      · exact landed
    · exact landed
  · exact h

theorem scanWord_inRange {s : State} (h : s.inRange) (hs : s.start.part ≠ .halted) (word count : Nat) (head w : Word) :
    (s.scanWord word count head w).inRange := by
  have taken : (s.takenInScan (imagePlace word count) w).inRange := h
  unfold State.scanWord
  dsimp only
  split
  · exact taken
  · exact stopScan_inRange taken hs _

theorem scanReadDone_inRange {s : State} (h : s.inRange) : s.scanReadDone.inRange := by
  unfold State.scanReadDone
  split
  · rename_i x word count head _ _
    have landed : (s.landed x).inRange := h
    split
    · rename_i hp
      exact scanWord_inRange landed (show s.start.part ≠ .halted by rw [hp]; decide) _ _ _ _
    · exact landed
  · exact h

theorem replayReadDone_numbers (s : State) : s.replayReadDone.numbers = s.numbers := by
  unfold State.replayReadDone
  repeat' split
  all_goals rfl

/-- R151: the replayed images stay at 65,535. -/
theorem replayedEntry_inRange {s : State} (h : s.inRange) (hs : s.start.part ≠ .halted) (count entry : Nat) :
    (s.replayedEntry count entry).inRange := by
  have replayed : (s.imageReplayed count).inRange := { h with replayed := Nat.min_le_left _ _ }
  unfold State.replayedEntry
  split
  · exact h
  · exact scanHere_inRange replayed hs

theorem replayWriteDone_inRange {s : State} (h : s.inRange) : s.replayWriteDone.inRange := by
  unfold State.replayWriteDone
  split
  · rename_i x count entry record _ _
    have landed : (s.landed x).inRange := h
    split
    · exact h
    · split
      · rename_i hp
        exact replayedEntry_inRange landed (show s.start.part ≠ .halted by rw [hp]; decide) _ _
      · exact landed
  · exact h

/-! ## Transfers of the management port (R161 to R171, R176) -/

theorem openLimitActs_inRange {s : State} (h : s.inRange) : s.openLimitActs.inRange := by
  unfold State.openLimitActs
  split
  · exact voidTxn_inRange h _
  · exact h

theorem holdLimitActs_inRange {s : State} (h : s.inRange) : s.holdLimitActs.inRange := by
  unfold State.holdLimitActs
  split
  · exact expireHold_inRange h
  · exact h

/-- R164: an acknowledged burst limit is 1 to 64. -/
theorem burstLimit_accepted {s : State} {b : Byte} (h : s.configByteRefused 4 b = false) : 1 ≤ b.toNat ∧ b.toNat ≤ 64 := by
  simp only [State.configByteRefused, BEq.rfl, Bool.true_and, Bool.or_eq_false_iff, beq_eq_false_iff_ne,
    decide_eq_false_iff_not, Nat.not_lt] at h
  exact ⟨Nat.one_le_iff_ne_zero.mpr fun e => h.2.1 (BitVec.eq_of_toNat_eq e), h.2.2⟩

/-- R164, R167: an acknowledged byte of CONFIG. -/
theorem configByte_inRange {s : State} (h : s.inRange) (o : Nat) (l : List Byte) {b : Byte}
    (hb : s.configByteRefused o b = false) : (s.configByte o l b).2.inRange := by
  unfold State.configByte
  split
  · exact h
  · exact openLimitActs_inRange h
  · exact h
  · exact holdLimitActs_inRange h
  · obtain ⟨low, high⟩ := burstLimit_accepted hb
    exact { h with burstLow := low, burstHigh := high }
  · exact h
  · exact h

theorem editByte_numbers (s : State) (o : Nat) (l : List Byte) (b : Byte) : (s.editByte o l b).2.numbers = s.numbers := by
  unfold State.editByte
  split <;> rfl

theorem liveByte_numbers (s : State) (o : Nat) (b : Byte) : (s.liveByte o b).2.numbers = s.numbers := by
  unfold State.liveByte
  split <;> rfl

theorem viewByte_numbers (s : State) (o : Nat) (b : Byte) : (s.viewByte o b).2.numbers = s.numbers := by
  unfold State.viewByte
  split <;> rfl

theorem commandByte_numbers (s : State) (o : Nat) (l : List Byte) (b : Byte) :
    (s.commandByte o l b).2.numbers = s.numbers := by
  unfold State.commandByte
  split <;> rfl

theorem acceptByte_inRange {s : State} (h : s.inRange) {item o : Nat} (l : List Byte) {b : Byte}
    (hb : s.byteRefused item o b = false) : (s.acceptByte item o l b).2.inRange := by
  unfold State.acceptByte
  split
  · exact configByte_inRange h o l hb
  · exact inRange_of_numbers h (editByte_numbers s o l b)
  · exact inRange_of_numbers h (liveByte_numbers s o b)
  · exact inRange_of_numbers h (viewByte_numbers s o b)
  · exact inRange_of_numbers h (commandByte_numbers s o l b)
  · exact h

theorem takeByte_inRange {s : State} (h : s.inRange) (w : WriteTransfer) (b : Byte) : (s.takeByte w b).2.2.inRange := by
  unfold State.takeByte
  split
  · exact h
  · split
    · split <;> exact h
    · split
      · exact h
      · rename_i hb
        exact acceptByte_inRange h _ (Bool.eq_false_iff.mpr hb)

theorem takeBytes_inRange (bs : List Byte) :
    ∀ (w : WriteTransfer) {s : State}, s.inRange → (takeBytes bs w s).2.2.inRange := by
  induction bs with
  | nil => exact fun _ _ h => h
  | cons b rest ih => exact fun w _ h => ih _ (takeByte_inRange h w b)

theorem endTransfer_numbers (s : State) : s.endTransfer.numbers = s.numbers := by
  unfold State.endTransfer
  dsimp only
  split
  · split <;> rfl
  · rfl
  · rfl

theorem closeStretch_numbers (s : State) (t : Transfer) (stop : Bool) : (s.closeStretch t stop).numbers = s.numbers := by
  unfold State.closeStretch
  split
  · exact endTransfer_numbers (s.setTransfer (some t))
  · rfl

theorem goOnWriting_inRange {s : State} (h : s.inRange) (w : WriteTransfer) (acks : List Bool) (bs : List Byte) (stop : Bool) :
    (s.goOnWriting w acks bs stop).inRange :=
  inRange_of_numbers (takeBytes_inRange bs w h) (closeStretch_numbers _ _ stop)

theorem refuseStretch_numbers (s : State) (n : Nat) (stop : Bool) : (s.refuseStretch n stop).numbers = s.numbers := by
  unfold State.refuseStretch
  dsimp only
  split
  · exact endTransfer_numbers (s.setAcks _)
  · rfl

theorem writeTransfer_inRange {s : State} (h : s.inRange) (frame : Framing) (first bs : List Byte) :
    (s.writeTransfer frame first bs).inRange := by
  have ended : s.endTransfer.inRange := inRange_of_numbers h (endTransfer_numbers s)
  unfold State.writeTransfer
  dsimp only
  split
  · split
    · exact goOnWriting_inRange ended _ _ _ _
    · exact ended
  · split
    · exact goOnWriting_inRange h _ _ _ _
    · exact inRange_of_numbers h (refuseStretch_numbers s _ _)
    · exact inRange_of_numbers h (refuseStretch_numbers s _ _)

/-- R176: the oldest record leaves the queue. -/
theorem valuesTaken_inRange {s : State} (h : s.inRange) : s.valuesTaken.inRange := by
  unfold State.valuesTaken
  split
  · unfold State.dropOldest
    split
    · exact h
    · exact { h with queued := (List.length_tail.trans_le (Nat.sub_le _ _)).trans h.queued }
  · exact h

theorem sendBytes_numbers (s : State) (left : List Byte) (n : Nat) (stop : Bool) :
    (s.sendBytes left n stop).numbers = s.numbers := closeStretch_numbers _ _ stop

theorem sendNothing_numbers (s : State) (stop : Bool) : (s.sendNothing stop).numbers = s.numbers := by
  unfold State.sendNothing
  dsimp only
  split
  · exact endTransfer_numbers _
  · rfl

theorem readTransfer_inRange {s : State} (h : s.inRange) (frame : Framing) (n : Nat) : (s.readTransfer frame n).inRange := by
  have ended : s.endTransfer.inRange := inRange_of_numbers h (endTransfer_numbers s)
  unfold State.readTransfer
  dsimp only
  split
  · split
    · exact inRange_of_numbers (valuesTaken_inRange ended) (sendBytes_numbers _ _ _ _)
    · exact ended
  · split
    · exact inRange_of_numbers h (sendBytes_numbers s _ _ _)
    · exact inRange_of_numbers h (sendNothing_numbers s _)
    · exact inRange_of_numbers h (sendNothing_numbers s _)

/-! ## The takes of the management commands (R125 to R127, R171 to R173) -/

/-- R171: the take of a command whose effect keeps the numbers in range where the controllers work. -/
theorem takeDue_inRange {s : State} (h : s.inRange) (named : Byte → Bool) {effect : Byte → State → State}
    (he : ∀ c t, t.inRange → t.start.part ≠ .halted → (effect c t).inRange) : (s.takeDue named effect).inRange := by
  have disarmed : s.disarm.inRange := h
  unfold State.takeDue
  split
  · split
    · split
      · rename_i hw
        exact he _ _ disarmed (fun e => by rw [show s.start.part = .halted from e] at hw; cases hw)
      · exact disarmed
    · exact h
  · exact h

theorem abortTaken_inRange {s : State} (h : s.inRange) : s.abortTaken.inRange := by
  unfold State.abortTaken
  split
  · exact inRange_of_numbers (voidTxn_inRange h _) rfl
  · exact inRange_of_numbers (voidTxn_inRange h _) rfl
  · exact h
  · exact h

theorem guardsTaken_numbers (s : State) : s.guardsTaken.numbers = s.numbers := by
  unfold State.guardsTaken
  split
  · rfl
  · split
    · exact requestWrite_numbers _
    · rfl

/-- R127: an accepted FORMAT leaves a part state outside HALTED for FORMATTING. -/
theorem formatTaken_inRange {s : State} (h : s.inRange) (hs : s.start.part ≠ .halted) : s.formatTaken.inRange := by
  unfold State.formatTaken
  split
  · exact h
  · split
    · exact h.enters hs (p := .formatting) (by decide)
    · exact h

/-! ## Every command, and the step -/

theorem exec_inRange {s t : State} (h : s.inRange) (c : Instr) (e : exec c s = .next t) : t.inRange := by
  cases c with
  | grant => exact execGrant_inRange h e
  | hostWrite a d l oe => cases e; exact presentCycle_inRange h _
  | hostRead a l => cases e; exact presentCycle_inRange h _
  | hostCycleEnd => cases e; exact h
  | hostAccessCompletion => cases e; exact inRange_of_numbers h (hostCompletion_numbers s)
  | refusalPulseEnd => cases e; exact pulseEnd_inRange h
  | holdExpired => cases e; exact holdExpiry_inRange h
  | openTimerExpiry => cases e; exact openExpiry_inRange h
  | txnRise => cases e; exact rise_inRange h
  | release => cases e; exact fall_inRange h
  | abtRise => cases e; exact abort_inRange h
  | memoryClaim who => cases e; exact nextClaim_inRange h who
  | logWriterTake => cases e; exact inRange_of_numbers h (logTake_numbers s)
  | imageWordCompletion => cases e; exact inRange_of_numbers h (imageCompletion_numbers s)
  | applyTake => cases e; exact inRange_of_numbers h (applyTake_numbers s)
  | applyChoice => cases e; exact inRange_of_numbers h (applyChoice_numbers s)
  | homeWriteCompletion => cases e; exact inRange_of_numbers h (homeCompletion_numbers s)
  | pendingWriteStart => cases e; exact inRange_of_numbers h (pendingStart_numbers s)
  | anchorWordCompletion => cases e; exact anchorCompletion_inRange h
  | formatClearCompletion => cases e; exact inRange_of_numbers h (clearCompletion_numbers s)
  | formatSecondWriteStart => cases e; exact inRange_of_numbers h (secondStart_numbers s)
  | powerOn pins => cases e; exact inRange_of_numbers (resetBy_inRange h .powerOn pins.straps) rfl
  | resetPin straps => cases e; exact inRange_of_numbers (resetBy_inRange h .resetPin straps) rfl
  | rstRise => cases e; exact h
  | powerResume straps => cases e; exact pfwRise_inRange h straps
  | pfwFall => cases e; exact pfwFall_inRange h
  | anchorReadCompletion => cases e; exact anchorReadDone_inRange h
  | scanReadCompletion => cases e; exact scanReadDone_inRange h
  | replayReadCompletion => cases e; exact inRange_of_numbers h (replayReadDone_numbers s)
  | replayWriteCompletion => cases e; exact replayWriteDone_inRange h
  | registerWrite frame bytes => cases e; exact writeTransfer_inRange h _ _ _
  | configWrite frame bytes => cases e; exact writeTransfer_inRange h _ _ _
  | faultRead frame count => cases e; exact readTransfer_inRange h _ _
  | abort => cases e; exact takeDue_inRange h _ fun _ _ ht _ => abortTaken_inRange ht
  | applyGuards => cases e; exact takeDue_inRange h _ fun _ t ht _ => inRange_of_numbers ht (guardsTaken_numbers t)
  | reloadGuardEdit => cases e; exact takeDue_inRange h _ fun _ _ ht _ => ht
  | format => cases e; exact takeDue_inRange h _ fun _ _ ht hs => formatTaken_inRange ht hs
  | clearFaults =>
    cases e
    exact takeDue_inRange h _ fun _ _ ht _ => { ht with queued := Nat.zero_le _, dropped := Nat.zero_le _ }
  | clearCounters => cases e; exact takeDue_inRange h _ fun _ _ ht _ => ht
  | softReset straps => cases e; exact takeDue_inRange h _ fun _ _ ht _ => resetBy_inRange ht _ _
  | unknownCommand => cases e; exact takeDue_inRange h _ fun _ _ ht _ => ht

/-- Settles O56: a step is a command on the queue's rest, or an idle step. -/
theorem stepKeepsTheNumbersInRange : Obligations.StepKeepsTheNumbersInRange := by
  intro s t hb hh e
  have h : s.inRange := (inRange_iff s).mpr ⟨hb, hh⟩
  refine (inRange_iff t).mp ?_
  unfold step at e
  split at e
  · rename_i c rest _
    exact exec_inRange (s := { s with pending := rest }) h c e
  · cases e
    exact idleStep_inRange h

end Sys2Proof.Machine
end

section
/-! The step keeps the protocol among banks, context, log writer and apply engine (R19, R44, R45, R51, R54, R57, R88, R90, R100),
command by command, and O1 and O55. -/

namespace Sys2Proof.Machine

/-- Settles O1. -/
theorem stepTakesTheFrontCommand : Obligations.StepTakesTheFrontCommand := by
  intro s c rest h
  simp only [step, h]

/-! ## The commands that are no operation of another block -/

theorem idleStep_protocol {s : State} (h : s.protocol) : s.idleStep.protocol := by
  unfold State.idleStep
  split
  · exact State.takeCycle_protocol h
  · exact State.tick_protocol h

theorem execGrant_protocol {s t : State} (h : s.protocol) (e : execGrant s = .next t) : t.protocol := by
  unfold execGrant at e
  split at e
  · split at e
    · cases e
      exact (State.granted_same s _ _).keeps h
    · cases e
  · cases e
    exact h

/-- R144, R145: the levels of the pins a reset finds are nothing the invariant reads. -/
theorem resetBy_pins_protocol (s : State) (cause : ResetCause) (x : Straps) (p : Pins) :
    ({ s.resetBy cause x with pins := p } : State).protocol :=
  State.resetBy_protocol s cause x

theorem pfwRise_protocol {s : State} (h : s.protocol) (x : Straps) : (s.pfwRise x).protocol := by
  unfold State.pfwRise
  dsimp only
  split
  · exact State.resetBy_protocol _ _ _
  · exact h

theorem pfwFall_protocol {s : State} (h : s.protocol) : s.pfwFall.protocol := by
  unfold State.pfwFall
  dsimp only
  split
  · exact State.enterHalted_protocol (s := { s with pins := { s.pins with pfwHigh := false } }) h
  · exact h

/-! ## Every command, and the step -/

theorem exec_protocol {s t : State} (h : s.protocol) (c : Instr) (e : exec c s = .next t) : t.protocol := by
  cases c with
  | grant => exact execGrant_protocol h e
  | hostWrite a d l oe => cases e; exact State.presentCycle_protocol h _
  | hostRead a l => cases e; exact State.presentCycle_protocol h _
  | hostCycleEnd => cases e; exact (State.endCycle_same s).keeps h
  | hostAccessCompletion => cases e; exact State.hostCompletion_protocol h
  | refusalPulseEnd => cases e; exact (State.pulseEnd_same s).keeps h
  | holdExpired => cases e; exact State.holdExpiry_protocol h
  | openTimerExpiry => cases e; exact State.openExpiry_protocol h
  | txnRise => cases e; exact State.rise_protocol h
  | release => cases e; exact State.fall_protocol h
  | abtRise => cases e; exact State.abort_protocol h
  | memoryClaim who => cases e; exact State.nextClaim_protocol h who
  | logWriterTake => cases e; exact State.logTake_protocol h
  | imageWordCompletion => cases e; exact State.imageCompletion_protocol h
  | applyTake => cases e; exact State.applyTake_protocol h
  | applyChoice => cases e; exact State.applyChoice_protocol h
  | homeWriteCompletion => cases e; exact State.homeCompletion_protocol h
  | pendingWriteStart => cases e; exact (State.pendingStart_same s).keeps h
  | anchorWordCompletion => cases e; exact State.anchorCompletion_protocol h
  | formatClearCompletion => cases e; exact State.clearCompletion_protocol h
  | formatSecondWriteStart => cases e; exact State.secondStart_protocol h
  | powerOn pins => cases e; exact resetBy_pins_protocol s .powerOn pins.straps _
  | resetPin straps => cases e; exact resetBy_pins_protocol s .resetPin straps _
  | rstRise => cases e; exact h
  | powerResume straps => cases e; exact pfwRise_protocol h straps
  | pfwFall => cases e; exact pfwFall_protocol h
  | anchorReadCompletion => cases e; exact State.anchorReadDone_protocol h
  | scanReadCompletion => cases e; exact State.scanReadDone_protocol h
  | replayReadCompletion => cases e; exact (State.replayReadDone_same s).keeps h
  | replayWriteCompletion => cases e; exact State.replayWriteDone_protocol h
  | registerWrite frame bytes => cases e; exact State.writeTransfer_protocol h frame [] bytes
  | configWrite frame bytes => cases e; exact State.writeTransfer_protocol h frame [0x04] bytes
  | faultRead frame count => cases e; exact State.readTransfer_protocol h frame count
  | abort => cases e; exact State.takeDue_protocol h _ _ fun _ _ _ _ ht => State.abortTaken_protocol ht
  | applyGuards => cases e; exact State.takeDue_protocol h _ _ fun _ _ _ _ ht => State.guardsTaken_protocol ht
  | reloadGuardEdit => cases e; exact State.takeDue_protocol h _ _ fun _ _ _ _ ht => ht
  | format => cases e; exact State.takeDue_protocol h _ _ fun _ _ _ _ ht => State.formatTaken_protocol ht
  | clearFaults => cases e; exact State.takeDue_protocol h _ _ fun _ _ _ _ ht => ht
  | clearCounters => cases e; exact State.takeDue_protocol h _ _ fun _ _ _ _ ht => ht
  | softReset straps => cases e; exact State.takeDue_protocol h _ _ fun _ t _ _ _ => State.resetBy_protocol t .soft straps
  | unknownCommand => cases e; exact State.takeDue_protocol h _ _ fun _ _ _ _ ht => ht

/-- Settles O55: a step is the command at the front of the queue, or an idle step, and each keeps the invariant. -/
theorem stepKeepsTheProtocol : Obligations.StepKeepsTheProtocol := by
  intro s t h e
  cases hq : s.pending with
  | nil =>
    simp only [step, hq] at e
    cases e
    exact idleStep_protocol h
  | cons c rest =>
    rw [stepTakesTheFrontCommand s c rest hq] at e
    exact exec_protocol (s := { s with pending := rest }) h c e

end Sys2Proof.Machine
end

section
/-! The transaction lines and the host transaction context (R16, R19 to R36, R41): void events, rises of TXN, releases, ABT, the
open timer, and O17 to O22, O38 and O50. -/

namespace Sys2Proof.Machine

/-- R3, R21, R173: the part states in which the controllers work. -/
theorem working_iff (s : State) : s.start.part.working = true ↔ s.controllerWorks := by
  refine ⟨fun h => ?_, working_of_controllerWorks⟩
  by_contra hc
  rw [not_working_of_not_controllerWorks hc] at h
  cases h

/-! ## Void events (R24) -/

/-- R24: a void event in SLOT_WAIT with no write held awaiting a bank. -/
theorem voidTxn_waiting {s : State} (hc : s.txn.context = .slotWait) (hs : ∀ h, s.host.slot = some h → h.awaits ≠ .bank)
    (r : VoidReason) : s.voidTxn r = s.voidedWaiting r := by
  have none_waits : (s.voidedWaiting r).slotAwaiting .bank = none := slotAwaiting_none (s := s.voidedWaiting r) hs
  simp only [State.voidTxn, hc]
  show (s.voidedWaiting r).refuseWaiting = s.voidedWaiting r
  simp only [State.refuseWaiting, none_waits]

/-- R24: a void event in SLOT_WAIT with a write held awaiting a bank. -/
theorem voidTxn_holding {s : State} (hc : s.txn.context = .slotWait) {h : HeldWrite} (hs : s.host.slot = some h)
    (hw : h.awaits = .bank) (r : VoidReason) : s.voidTxn r = s.voidedHolding r := by
  have waits : (s.voidedWaiting r).slotAwaiting .bank = some h := slotAwaiting_some (s := s.voidedWaiting r) hs hw
  simp only [State.voidTxn, hc]
  show (s.voidedWaiting r).refuseWaiting = s.voidedHolding r
  simp only [State.refuseWaiting, waits]
  rfl

/-- R24: what a void event in OPEN and in SLOT_WAIT gives, whatever the held-write slot holds. -/
theorem voidTxn_enters_void {s : State} (hc : (∃ b, s.txn.context = .opened b) ∨ s.txn.context = .slotWait) (r : VoidReason) :
    (s.voidTxn r).txn.context = .voided r ∧ (s.voidTxn r).start = s.start := by
  rcases hc with ⟨b, hc⟩ | hc
  · rw [voidTxn_opened hc]
    exact ⟨rfl, State.setBank_start s b _⟩
  · by_cases hs : ∃ h, s.host.slot = some h ∧ h.awaits = .bank
    · obtain ⟨h, hs, hw⟩ := hs
      rw [voidTxn_holding hc hs hw]
      exact ⟨rfl, rfl⟩
    · rw [voidTxn_waiting hc (fun h e hw => hs ⟨h, e, hw⟩)]
      exact ⟨rfl, rfl⟩

/-! ## Rises of TXN (R16, R22) -/

/-- R53: the lower-numbered FREE bank is there where either bank is FREE. -/
theorem freeBank_eq_some_iff (s : State) (b : BankId) :
    s.freeBank = some b ↔
      (s.bank0.state = .free ∨ s.bank1.state = .free) ∧ b = if s.bank0.state = .free then .b0 else .b1 := by
  unfold State.freeBank
  by_cases h0 : s.bank0.state = .free
  · simp [h0, eq_comm]
  · by_cases h1 : s.bank1.state = .free <;> simp [h0, h1, eq_comm]

theorem freeBank_eq_some {s : State} {b : BankId} (h : (s.bank b).state = .free) (hl : b = .b1 → s.bank0.state ≠ .free) :
    s.freeBank = some b := by
  rw [freeBank_eq_some_iff]
  cases b with
  | b0 => exact ⟨.inl h, (if_pos h).symm⟩
  | b1 => exact ⟨.inr h, (if_neg (hl rfl)).symm⟩

theorem freeBank_eq_none {s : State} (h0 : s.bank0.state ≠ .free) (h1 : s.bank1.state ≠ .free) : s.freeBank = none := by
  unfold State.freeBank
  rw [if_neg h0, if_neg h1]

section Rise
variable {s : State}

/-- R22, step 3, in RUN with a FREE bank. -/
theorem riseContext_opens {b : BankId} (hp : s.start.part = .run) (hb : s.freeBank = some b) : s.riseContext = s.openOn b := by
  simp only [State.riseContext, hp, hb]

/-- R22, step 3, in RUN with no FREE bank and in FORMATTING. -/
theorem riseContext_waits
    (h : s.start.part = .formatting ∨ (s.start.part = .run ∧ s.bank0.state ≠ .free ∧ s.bank1.state ≠ .free)) :
    s.riseContext = { s with txn := { s.txn with context := .slotWait } } := by
  rcases h with hp | ⟨hp, h0, h1⟩
  · simp only [State.riseContext, hp]
  · simp only [State.riseContext, hp, freeBank_eq_none h0 h1]

/-- R22, step 3, in UNFORMATTED. -/
theorem riseContext_unformatted (hp : s.start.part = .unformatted) : s.riseContext = s.voidedWaiting .unformatted := by
  simp only [State.riseContext, hp]
  rfl

/-- R16: the HOST_RESET notice of a pulse in progress. -/
theorem pulseNotice_idle (h : s.host.pulse = none) : s.pulseNotice = s := by
  simp [State.pulseNotice, h]

theorem pulseNotice_voids (h : s.host.pulse ≠ none) : s.pulseNotice = s.voidTxn .hostReset :=
  if_pos (Option.isSome_iff_ne_none.mpr h)

/-- R24: the notice is ignored in VOID. -/
theorem pulseNotice_voided {r : VoidReason} (h : s.txn.context = .voided r) : s.pulseNotice = s := by
  unfold State.pulseNotice
  split
  · exact voidTxn_ignored (.inr ⟨r, h⟩) _
  · rfl

/-- R22: TXN_RISE in IDLE, its steps in order. -/
theorem exec_txnRise_idle (hw : s.controllerWorks) (hc : s.txn.context = .idle) :
    exec .txnRise s =
      .next ({ s with pins := { s.pins with txnHigh := true } } : State).riseBegins.riseContext.pulseNotice :=
  congrArg Host.Outcome.next (if_pos ⟨working_of_controllerWorks hw, hc⟩)

end Rise

/-- Settles O17: the part state and the banks give the context, and then the pulse voids it. -/
theorem riseOfTxnBeginsATransaction : Obligations.RiseOfTxnBeginsATransaction := by
  intro s hc t opened free waits
  have opens {b : BankId} (hp : s.start.part = .run) (hb : free b) : t.riseContext = opened b :=
    riseContext_opens (s := t) hp (freeBank_eq_some (s := t) hb.1 hb.2)
  have works (hw : waits) : s.controllerWorks := hw.elim (fun h => .inr (.inr h)) fun h => .inr (.inl h.1)
  have rises (hw : s.controllerWorks) : exec .txnRise s = .next t.riseContext.pulseNotice := exec_txnRise_idle hw hc
  refine ⟨fun b hp hb hn => ?_, fun b hp hb hn => ?_, fun hw hn => ?_, fun hw hn hs => ?_, fun hp => ?_⟩
  · rw [rises (.inr (.inl hp)), opens hp hb, pulseNotice_idle]
    cases b <;> exact hn
  · rw [rises (.inr (.inl hp)), opens hp hb, pulseNotice_voids, voidTxn_opened (b := b) rfl]
    cases b <;> exact hn
  · rw [rises (works hw), riseContext_waits (s := t) hw]
    exact congrArg Host.Outcome.next (pulseNotice_idle hn)
  · rw [rises (works hw), riseContext_waits (s := t) hw]
    let waiting : State := { t with txn := { t.txn with context := .slotWait } }
    exact congrArg Host.Outcome.next ((pulseNotice_voids (s := waiting) hn).trans
      (voidTxn_waiting (s := waiting) rfl hs .hostReset))
  · rw [rises (.inl hp), riseContext_unformatted (s := t) hp]
    exact congrArg Host.Outcome.next (pulseNotice_voided rfl)

/-! ## Releases (R31 to R36) -/

section Release
variable {s : State}

/-- The level of TXN after its fall. -/
def State.txnLow (s : State) : State := { s with pins := { s.pins with txnHigh := false } }

/-- R21, R31: RELEASE where the controllers work. -/
theorem exec_release_works (hw : s.controllerWorks) : exec .release s = .next s.txnLow.releaseTaken :=
  congrArg Host.Outcome.next (if_pos (working_of_controllerWorks hw))

@[simp] theorem txnLow_bank (b : BankId) : s.txnLow.bank b = s.bank b := by cases b <;> rfl

@[simp] theorem txnLow_setBank (b : BankId) (k : Bank) : s.txnLow.setBank b k = (s.setBank b k).txnLow := by cases b <;> rfl

/-- R31: the checks of a release in OPEN of a bank of `n` entries, in order. -/
theorem releaseOpen_empty {b : BankId} (he : (s.bank b).entries.length = 0) :
    s.releaseOpen b = (s.setBank b .empty).emptyRelease := if_pos he

theorem releaseOpen_tooSmall {b : BankId} {n : Nat} (he : (s.bank b).entries.length = n) (hn : 0 < n)
    (hz : s.anchor.image.logSize < 3 * n + 8) :
    s.releaseOpen b = (s.setBank b .empty).failRelease .logTooSmall n 0 := by
  subst he
  exact (if_neg (Nat.ne_of_gt hn)).trans (if_pos hz)

theorem releaseOpen_sequenceEnd {b : BankId} {n : Nat} (he : (s.bank b).entries.length = n) (hn : 0 < n)
    (hz : 3 * n + 8 ≤ s.anchor.image.logSize) (hq : s.txn.nextSeq = 0) :
    s.releaseOpen b = (s.setBank b .empty).failRelease .sequenceEnd n 0 := by
  subst he
  exact (if_neg (Nat.ne_of_gt hn)).trans ((if_neg (Nat.not_lt.mpr hz)).trans (if_pos hq))

theorem releaseOpen_accepts {b : BankId} {n : Nat} (he : (s.bank b).entries.length = n) (hn : 0 < n)
    (hz : 3 * n + 8 ≤ s.anchor.image.logSize) (hq : s.txn.nextSeq ≠ 0) : s.releaseOpen b = s.accept b := by
  subst he
  exact (if_neg (Nat.ne_of_gt hn)).trans ((if_neg (Nat.not_lt.mpr hz)).trans (if_neg hq))

/-- R31, R33, R34: the context decides a release. -/
theorem releaseTaken_opened {b : BankId} (h : s.txn.context = .opened b) : s.releaseTaken = s.releaseOpen b := by
  simp only [State.releaseTaken, h]

theorem releaseTaken_slotWait (h : s.txn.context = .slotWait) : s.releaseTaken = s.releaseWaiting := by
  simp only [State.releaseTaken, h]

theorem releaseTaken_voided {r : VoidReason} (h : s.txn.context = .voided r) :
    s.releaseTaken = s.failRelease r.reason 0 s.txn.refused := by
  simp only [State.releaseTaken, h]

/-- R35, R36: a release answered FAILED. -/
theorem txnLow_failRelease (reason : Reason) (n k : Nat) :
    s.txnLow.failRelease reason n k = (s.released ⟨.failed, some reason, none, some n, some k⟩).reported reason := by
  simp only [State.failRelease, State.reportFailure, countOnce_eq]
  rfl

/-- R32: the group of a bank is accepted. -/
theorem txnLow_accept (b : BankId) :
    s.txnLow.accept b =
      let t := (s.setBank b { s.bank b with state := .logWait, seq := some s.txn.nextSeq }).released
        ⟨.accepted, none, some s.txn.nextSeq, some (s.bank b).entries.length, some 0⟩
      { t with
        txn := { t.txn with nextSeq := s.txn.nextSeq + 1 }
        mgmt := { s.mgmt with counters := { s.mgmt.counters with accepted := counted s.mgmt.counters.accepted } } } := by
  simp only [State.accept, countOnce_eq]
  cases b <;> rfl

/-- R34: a release in VOID. -/
theorem exec_release_voided {r : VoidReason} (hw : s.controllerWorks) (hc : s.txn.context = .voided r) :
    exec .release s =
      .next ((s.released ⟨.failed, some r.reason, none, some 0, some s.txn.refused⟩).reported r.reason) := by
  rw [exec_release_works hw, releaseTaken_voided (s := s.txnLow) hc, txnLow_failRelease]
  rfl

end Release

/-- Settles O18. -/
theorem releaseIsAccepted : Obligations.ReleaseIsAccepted := by
  intro s b hw hc n hn hz hq t u
  refine ⟨?_, ?_⟩
  · rw [exec_release_works hw, releaseTaken_opened (s := s.txnLow) hc,
      releaseOpen_accepts (s := s.txnLow) (by rw [txnLow_bank]) hn hz hq, txnLow_accept]
  · cases b
    · simp [u, t, State.tbsyHigh, State.released, BankState.loggingOrWaiting]
    · simp [u, t, State.tbsyHigh, State.released, BankState.loggingOrWaiting]

/-- Settles O19: the checks of a release in OPEN, then a release in SLOT_WAIT. -/
theorem releaseThatCommitsNothing : Obligations.ReleaseThatCommitsNothing := by
  intro s hw
  refine ⟨?_, fun hc => ?_⟩
  · intro b hc n t fails
    have taken : exec .release s = .next (s.txnLow.releaseOpen b) := by
      rw [exec_release_works hw, releaseTaken_opened (s := s.txnLow) hc]
    have count : (s.txnLow.bank b).entries.length = n := by rw [txnLow_bank]
    rw [taken]
    refine ⟨fun hn => ?_, fun hn hz => ?_, fun hn hz hq => ?_⟩
    · rw [releaseOpen_empty (count.trans hn), txnLow_setBank]
      rfl
    · rw [releaseOpen_tooSmall count hn hz, txnLow_setBank, txnLow_failRelease]
      rfl
    · rw [releaseOpen_sequenceEnd (s := s.txnLow) count hn hz hq, txnLow_setBank, txnLow_failRelease]
      rfl
  · have taken : exec .release s = .next s.txnLow.releaseWaiting := by
      rw [exec_release_works hw, releaseTaken_slotWait (s := s.txnLow) hc]
    rw [taken]
    refine ⟨fun hs => ?_, fun h hs hb => ?_⟩
    · simp only [State.releaseWaiting, slotAwaiting_none (s := s.txnLow) hs]
      rfl
    · simp only [State.releaseWaiting, slotAwaiting_some (s := s.txnLow) hs hb]
      exact congrArg Host.Outcome.next (txnLow_failRelease (s := s.slotEmptied.withRefused .noSlot h.addr h.entry) .noSlot 0 0)

/-- Settles O20. -/
theorem releaseOfAVoidTransaction : Obligations.ReleaseOfAVoidTransaction := by
  intro s r hw hc reason
  have named : r.reason = reason := by cases r <;> rfl
  rw [exec_release_voided hw hc, named]

/-! ## ABT, the open timer and the ABORT command (R25, R26, R30) -/

/-- R25: ABT_RISE where the controllers work. -/
theorem exec_abtRise_works {s : State} (hw : s.controllerWorks) : exec .abtRise s = .next (s.voidTxn .aborted) :=
  congrArg Host.Outcome.next (if_pos (working_of_controllerWorks hw))

/-- Settles O21: the void event in each context, and the release that follows it. -/
theorem abtRiseVoidsTheTransaction : Obligations.AbtRiseVoidsTheTransaction := by
  intro s hw
  rw [exec_abtRise_works hw]
  refine ⟨fun b hc => ?_, fun hc => ⟨fun hs => ?_, fun h hs hb => ?_⟩, fun hc => ?_, fun hc => ?_⟩
  · rw [voidTxn_opened hc]
  · rw [voidTxn_waiting hc hs]
  · rw [voidTxn_holding hc hs hb]
  · rw [voidTxn_ignored hc]
  · obtain ⟨voided, start⟩ := voidTxn_enters_void hc .aborted
    have works : (s.voidTxn .aborted).controllerWorks := by rwa [State.controllerWorks, start]
    exact ⟨_, _, rfl, exec_release_voided works voided, rfl, rfl, rfl⟩

/-- R30: when the open timer can expire. -/
theorem openTimerArmed_iff (s : State) :
    s.openTimerArmed = true ↔ s.controllerWorks ∧ s.txn.openTimer.running = true ∧ s.mgmt.config.openLimit ≠ 0 ∧
      ((∃ b, s.txn.context = .opened b) ∨ s.txn.context = .slotWait) := by
  simp only [State.openTimerArmed, Bool.and_eq_true, decide_eq_true_eq, working_iff, and_assoc]
  cases s.txn.context <;> simp

/-- R29, R30: OPEN_TIMER_EXPIRY where the timer is armed, and where it is not. -/
theorem exec_openTimerExpiry_armed {s : State} (h : s.openTimerArmed = true) :
    exec .openTimerExpiry s = .next ((s.advance s.openTimeLeft).voidTxn .expired) := congrArg Host.Outcome.next (if_pos h)

theorem exec_openTimerExpiry_unarmed {s : State} (h : ¬s.openTimerArmed = true) : exec .openTimerExpiry s = .next s :=
  congrArg Host.Outcome.next (if_neg h)

/-- Settles O22: the expiry in OPEN and SLOT_WAIT, and where nothing expires. -/
theorem openTimerExpiryVoidsTheTransaction : Obligations.OpenTimerExpiryVoidsTheTransaction := by
  intro s
  refine ⟨?_, fun h => ?_⟩
  · intro hw hr hl t
    have expires (hc : (∃ b, s.txn.context = .opened b) ∨ s.txn.context = .slotWait) :
        exec .openTimerExpiry s = .next (t.voidTxn .expired) :=
      exec_openTimerExpiry_armed ((openTimerArmed_iff s).mpr ⟨hw, hr, hl, hc⟩)
    have context : t.txn.context = s.txn.context := advance_context s _
    have slot : t.host.slot = s.host.slot := advance_slot s _
    refine ⟨fun b hc => ?_, fun hc => ⟨fun hs => ?_, fun h hs hb => ?_⟩⟩
    · rw [expires (.inl ⟨b, hc⟩), voidTxn_opened (context.trans hc)]
    · rw [expires (.inr hc), voidTxn_waiting (context.trans hc) (by rwa [slot])]
    · rw [expires (.inr hc), voidTxn_holding (context.trans hc) (slot.trans hs) hb]
  · refine exec_openTimerExpiry_unarmed fun armed => ?_
    obtain ⟨hw, hr, hl, hc⟩ := (openTimerArmed_iff s).mp armed
    rcases h with h | h | h | h | ⟨r, h⟩
    · exact h hw
    · simp [hr] at h
    · exact hl h
    · simp [h] at hc
    · simp [h] at hc

/-- R171: the take of the command that is due, where the controllers work. -/
theorem takeDue_taken {s : State} {c : Byte} (hd : s.mgmt.command.due = some c) (hw : s.controllerWorks) {named : Byte → Bool}
    (hn : named c = true) (effect : Byte → State → State) : s.takeDue named effect = effect c s.taken := by
  simp only [State.takeDue, hd, hn, working_of_controllerWorks hw, if_true]
  rfl

/-- Settles O50: as a rise of ABT, with the status of the take. -/
theorem abortCommandVoidsTheTransaction : Obligations.AbortCommandVoidsTheTransaction := by
  intro s hd hw
  have take : exec .abort s = .next s.taken.abortTaken :=
    congrArg Host.Outcome.next (takeDue_taken hd hw (named := (· == 0x01)) rfl fun _ t => t.abortTaken)
  have voids (hc : (∃ b, s.txn.context = .opened b) ∨ s.txn.context = .slotWait) :
      s.taken.abortTaken = (s.taken.voidTxn .aborted).withStatus .done 0x01 none := by
    rcases hc with ⟨b, hc⟩ | hc
    · simp only [State.abortTaken, show s.taken.txn.context = .opened b from hc]
      rfl
    · simp only [State.abortTaken, show s.taken.txn.context = .slotWait from hc]
      rfl
  rw [take]
  refine ⟨fun b hc => ?_, fun hc => ⟨fun hs => ?_, fun h hs hb => ?_⟩, fun hc => ?_⟩
  · rw [voids (.inl ⟨b, hc⟩), voidTxn_opened (s := s.taken) hc]
  · rw [voids (.inr hc), voidTxn_waiting (s := s.taken) hc hs]
  · rw [voids (.inr hc), voidTxn_holding (s := s.taken) hc hs hb]
  · rcases hc with hc | ⟨r, hc⟩
    · simp only [State.abortTaken, show s.taken.txn.context = .idle from hc]
      rfl
    · simp only [State.abortTaken, show s.taken.txn.context = .voided r from hc]
      rfl

/-! ## Edges that are no events (R21, R41, R144, R147) -/

/-- Settles O38: where the controllers do not work, outside HALTED, and the rise of RST#. -/
theorem edgesThatOnlyChangeALevel : Obligations.EdgesThatOnlyChangeALevel := by
  intro s straps
  refine ⟨fun hw => ?_, fun hp => congrArg Host.Outcome.next (if_neg hp), rfl⟩
  have stopped : ¬s.start.part.working = true := fun h => hw ((working_iff s).mp h)
  exact ⟨congrArg Host.Outcome.next (if_neg fun h => stopped h.1), congrArg Host.Outcome.next (if_neg stopped),
    congrArg Host.Outcome.next (if_neg stopped)⟩

end Sys2Proof.Machine
end

section
/-! Word 63 of an anchor write in RUN (R23, R53, R71, R72, R77, R78, R108, R123): what the write itself sets, what the transaction
that waits then gets, what the held write does, and O33. -/

namespace Sys2Proof.Machine

/-! ## The transaction that waits (R23, R47, R53, R77) -/

/-- R23: the context is OPEN on a bank, which holds what is given. -/
def State.openedOn (s : State) (b : BankId) (k : Bank) : State :=
  { s.setBank b k with txn := { s.txn with context := .opened b } }

/-- R47, R53: a bank in CAPTURE whose entry 0 is a held write. -/
def HeldWrite.capturedAlone (h : HeldWrite) : Bank :=
  ⟨.capture, none, [⟨h.addr, maskLanes h.lanes h.data, h.lanes, false⟩], none, none⟩

section Opened
variable (s : State) (b : BankId) (k : Bank)

@[simp] theorem openedOn_host : (s.openedOn b k).host = s.host := State.setBank_host s b k
@[simp] theorem openedOn_bank_self : (s.openedOn b k).bank b = k := by cases b <;> rfl
@[simp] theorem openedOn_bank_other : (s.openedOn b k).bank b.other = s.bank b.other := by cases b <;> rfl

/-- R47: the write held is the first capture of the bank just opened. -/
theorem openOn_captureHeld {h : HeldWrite} (hs : s.host.slot = some h) (hw : h.awaits = .bank) :
    (s.openOn b).captureHeld b = s.slotEmptied.openedOn b h.capturedAlone := by
  have waits : (s.openOn b).slotAwaiting .bank = some h := slotAwaiting_some ((openedOn_host s b .capturing).symm ▸ hs) hw
  have room : captureEntries [] h.addr h.data h.lanes = some [⟨h.addr, maskLanes h.lanes h.data, h.lanes, false⟩] :=
    captureEntries_new h.data h.lanes (by simp) (by decide)
  simp only [State.captureHeld, waits]
  rw [capture_stored (b := b) (es := [⟨h.addr, maskLanes h.lanes h.data, h.lanes, false⟩]) (by cases b <;> exact room)]
  cases b <;> rfl

/-- R23: an opening with no write held awaiting a bank. -/
theorem openOn_captureNone (hs : s.slotAwaiting .bank = none) : (s.openOn b).captureHeld b = s.openedOn b .capturing := by
  have waits : (s.openOn b).slotAwaiting .bank = none := by
    simpa only [State.slotAwaiting, show (s.openOn b).host = s.host from openedOn_host s b .capturing] using hs
  simp only [State.captureHeld, waits]
  rfl

end Opened

section OpenWaiting
variable {s : State}

/-- R23: in RUN a transaction in SLOT_WAIT finds a FREE bank. -/
def State.findsBank (s : State) (b : BankId) : Prop :=
  s.start.part = .run ∧ s.txn.context = .slotWait ∧ s.freeBank = some b

theorem openWaiting_stays (h : ∀ b, ¬s.findsBank b) : s.openWaiting = s := by
  unfold State.openWaiting
  split
  · rename_i hc
    split
    · rename_i b hb
      exact absurd ⟨hc.1, hc.2, hb⟩ (h b)
    · rfl
  · rfl

theorem openWaiting_finds {b : BankId} (h : s.findsBank b) : s.openWaiting = (s.openOn b).captureHeld b := by
  obtain ⟨hp, hc, hb⟩ := h
  simp only [State.openWaiting, hp, hc, hb, and_self, if_true]

/-- R23, R77: everything a transaction that waits can get: nothing, a bank with the write held for it, or an empty bank. -/
theorem openWaiting_cases (s : State) :
    (s.openWaiting = s ∧ ∀ b, ¬s.findsBank b) ∨
    ∃ b, s.findsBank b ∧
      ((∃ h, s.host.slot = some h ∧ h.awaits = .bank ∧ s.openWaiting = s.slotEmptied.openedOn b h.capturedAlone) ∨
        (s.slotAwaiting .bank = none ∧ s.openWaiting = s.openedOn b .capturing)) := by
  by_cases hf : ∃ b, s.findsBank b
  · obtain ⟨b, hb⟩ := hf
    refine .inr ⟨b, hb, ?_⟩
    rw [openWaiting_finds hb]
    cases hs : s.slotAwaiting .bank with
    | none => exact .inr ⟨rfl, openOn_captureNone s b hs⟩
    | some h =>
      obtain ⟨slot, awaits⟩ := State.slotAwaiting_spec hs
      exact .inl ⟨h, slot, awaits, openOn_captureHeld s b slot awaits⟩
  · have none_found : ∀ b, ¬s.findsBank b := fun b hb => hf ⟨b, hb⟩
    exact .inl ⟨openWaiting_stays none_found, none_found⟩

/-- R23: what the opening can change. -/
theorem openWaiting_frame (s : State) : ∃ slot timer context k0 k1, s.openWaiting =
    { s with
      host := { s.host with slot := slot, holdTimer := timer }
      txn := { s.txn with context := context }
      bank0 := k0
      bank1 := k1 } := by
  rcases openWaiting_cases s with ⟨e, _⟩ | ⟨b, _, ⟨h, _, _, e⟩ | ⟨_, e⟩⟩ <;> rw [e]
  · exact ⟨_, _, _, _, _, rfl⟩
  · cases b <;> exact ⟨_, _, _, _, _, rfl⟩
  · cases b <;> exact ⟨_, _, _, _, _, rfl⟩

theorem openWaiting_port (s : State) : s.openWaiting.port = s.port := by
  obtain ⟨_, _, _, _, _, e⟩ := openWaiting_frame s
  rw [e]

/-- R77: with no write held awaiting a bank the opening leaves the host port. -/
theorem openWaiting_host (hs : s.slotAwaiting .bank = none) : s.openWaiting.host = s.host := by
  rcases openWaiting_cases s with ⟨e, _⟩ | ⟨b, _, ⟨h, slot, awaits, _⟩ | ⟨_, e⟩⟩
  · rw [e]
  · rw [slotAwaiting_some slot awaits] at hs
    cases hs
  · rw [e, openedOn_host]

/-- A property of one of the banks, taken from one of them. -/
theorem exists_bank (b : BankId) {P : BankId → Prop} : (∃ c, P c) ↔ P b ∨ P b.other := by
  constructor
  · rintro ⟨c, h⟩
    cases b <;> cases c
    exacts [.inl h, .inr h, .inr h, .inl h]
  · exact fun h => h.elim (⟨b, ·⟩) (⟨b.other, ·⟩)

/-- R70: neither a FREE bank nor one in CAPTURE makes the hold condition. -/
theorem openedOn_heldWord {b : BankId} {k : Bank} (hb : (s.bank b).state = .free) (hk : k.state = .capture) (a : Addr) :
    (s.openedOn b k).heldWord a ↔ s.heldWord a := by
  unfold State.heldWord
  rw [exists_bank b, exists_bank b, openedOn_bank_self, openedOn_bank_other, hb, hk]
  simp [BankState.committed]

theorem openWaiting_heldWord (s : State) (a : Addr) : s.openWaiting.heldWord a ↔ s.heldWord a := by
  rcases openWaiting_cases s with ⟨e, _⟩ | ⟨b, ⟨_, _, free⟩, ⟨h, _, _, e⟩ | ⟨_, e⟩⟩ <;> rw [e]
  · exact openedOn_heldWord (s := s.slotEmptied) (State.freeBank_spec free) rfl a
  · exact openedOn_heldWord (State.freeBank_spec free) rfl a

end OpenWaiting

/-! ## The held write (R71, R72, R78) -/

section ExamineHold
variable {s : State}

/-- R71: the examination of a held write is of one that awaits the hold condition. -/
theorem examineHold_unheld (h : s.slotAwaiting .holdCondition = none) : s.examineHold = s := by
  simp only [State.examineHold, h]

variable {h : HeldWrite} (hs : s.host.slot = some h) (hw : h.awaits = .holdCondition)
include hs hw

/-- R72: the hold goes on while a committed bank holds the word. -/
theorem examineHold_waits (hh : s.heldWord h.addr) : s.examineHold = s := by
  simp only [State.examineHold, slotAwaiting_some hs hw, (holds_iff s h.addr).mpr hh, if_true]

/-- R71: the hold ends, and the write claims the memory port. -/
theorem examineHold_claims (hh : ¬s.heldWord h.addr) :
    s.examineHold = { s with
      host := { s.host with
        slot := some { h with awaits := .port }, holdTimer := { s.host.holdTimer with running := false } }
      port := { s.port with waiting := { s.port.waiting with host := some ⟨true, h.addr, h.lanes, h.data⟩ } } } := by
  simp only [State.examineHold, slotAwaiting_some hs hw, if_neg (fun e => hh ((holds_iff s h.addr).mp e))]
  rfl

end ExamineHold

/-- R71: what the examination can change. -/
theorem examineHold_frame (s : State) : ∃ slot timer waiting, s.examineHold =
    { s with
      host := { s.host with slot := slot, holdTimer := timer }
      port := { s.port with waiting := waiting } } := by
  cases hs : s.slotAwaiting .holdCondition with
  | none => exact ⟨_, _, _, examineHold_unheld hs⟩
  | some h =>
    obtain ⟨slot, awaits⟩ := State.slotAwaiting_spec hs
    by_cases hh : s.heldWord h.addr
    · exact ⟨_, _, _, examineHold_waits slot awaits hh⟩
    · exact ⟨_, _, _, examineHold_claims slot awaits hh⟩

@[simp] theorem examineHold_txn (s : State) : s.examineHold.txn = s.txn := by
  obtain ⟨_, _, _, e⟩ := examineHold_frame s
  rw [e]

@[simp] theorem examineHold_bank (s : State) (b : BankId) : s.examineHold.bank b = s.bank b := by
  obtain ⟨_, _, _, e⟩ := examineHold_frame s
  rw [e]
  cases b <;> rfl

/-! ## What the write itself sets (R108, R123) -/

/-- R108, R123: the effects of word 63 of a write that carries no FORMAT, before its neighbours take what it frees. -/
def State.writeEffects (s : State) (w : AnchorWrite) : State :=
  { s with
    host := { s.host with guards := copyGuards w.snapshot }
    bank0 := if w.covers0 then .empty else s.bank0
    bank1 := if w.covers1 then .empty else s.bank1
    log := { s.log with used :=
      s.log.used - (if w.covers0 then s.bank0.reserved else 0) - (if w.covers1 then s.bank1.reserved else 0) }
    anchor := { s.anchor with generation := w.generation, lastCopy := some w.target, write := none }
    mgmt := if w.carried = some .applyGuards then
      { s.mgmt with status := { s.mgmt.status with status := .done, reason := none } } else s.mgmt }

/-- R108: a bank in RETIRING is emptied and its image leaves the log. -/
theorem retireBank_retiring {s : State} {b : BankId} (h : (s.bank b).state = .retiring) :
    s.retireBank b = { s.setBank b .empty with log := { s.log with used := s.log.used - (s.bank b).reserved } } := by
  unfold State.retireBank
  rw [if_pos h]
  simp only [Bank.reserved, h]
  cases (s.bank b).image <;> rfl

/-- R108: the banks of the covered set, each in RETIRING. -/
theorem retireCovered_eq {s : State} {w : AnchorWrite} (h0 : w.covers0 = true → s.bank0.state = .retiring)
    (h1 : w.covers1 = true → s.bank1.state = .retiring) :
    s.retireCovered w = { s with
      bank0 := if w.covers0 then .empty else s.bank0
      bank1 := if w.covers1 then .empty else s.bank1
      log := { s.log with used :=
        s.log.used - (if w.covers0 then s.bank0.reserved else 0) - (if w.covers1 then s.bank1.reserved else 0) } } := by
  unfold State.retireCovered
  cases c0 : w.covers0 <;> cases c1 : w.covers1
  · rfl
  · exact retireBank_retiring (b := .b1) (h1 c1)
  · exact retireBank_retiring (b := .b0) (h0 c0)
  · simp only [if_true, retireBank_retiring (b := .b0) (h0 c0)]
    exact retireBank_retiring (b := .b1) (h1 c1)

/-- R123, step 4, for a write that carries no FORMAT. -/
theorem carriedDone_eq {s : State} {w : AnchorWrite} (h : w.carried ≠ some .format) :
    s.carriedDone w = { s with mgmt := if w.carried = some .applyGuards then
      { s.mgmt with status := { s.mgmt.status with status := .done, reason := none } } else s.mgmt } := by
  unfold State.carriedDone
  split
  · rename_i e
    rw [if_pos e]
    rfl
  · rename_i e
    exact absurd e h
  · rename_i e
    rw [if_neg (by simp [e])]

/-- R154: outside RECOVERY nothing is closed. -/
theorem closingDone_eq {s : State} (h : s.start.part ≠ .recovery) : s.closingDone = s := if_neg h

/-- R123: word 63 of a write that carries no FORMAT, in RUN. -/
theorem completeWrite_run {s : State} {w : AnchorWrite} (hp : s.start.part = .run) (hc : w.carried ≠ some .format)
    (h0 : w.covers0 = true → s.bank0.state = .retiring) (h1 : w.covers1 = true → s.bank1.state = .retiring) :
    s.completeWrite w = (s.writeEffects w).openWaiting.examineHold := by
  have effects : ((s.writeDone w).retireCovered w).carriedDone w = s.writeEffects w := by
    rw [carriedDone_eq hc, retireCovered_eq (s := s.writeDone w) h0 h1]
    rfl
  have runs : (s.writeEffects w).openWaiting.examineHold.start.part ≠ .recovery := by
    obtain ⟨_, _, _, e⟩ := examineHold_frame (s.writeEffects w).openWaiting
    obtain ⟨_, _, _, _, _, e'⟩ := openWaiting_frame (s.writeEffects w)
    rw [e, e']
    simp [State.writeEffects, hp]
  unfold State.completeWrite
  rw [effects, closingDone_eq runs]

/-- R122, R123: the completion of word 63 of the write in flight, in RUN. -/
theorem exec_anchorWordCompletion_last {s : State} {x : Access} {w : AnchorWrite} (hf : s.port.inFlight = some ⟨.anchor, x⟩)
    (hw : s.anchor.write = some w) (hp : s.start.part = .run) (hn : w.completed = 63) :
    exec .anchorWordCompletion s = .next ((s.landed x).completeWrite w) := by
  show Host.Outcome.next s.anchorCompletion = _
  simp only [State.anchorCompletion, flightOf_eq hf, hw, anchorWorks_of_part (.inl hp), if_true]
  exact congrArg Host.Outcome.next (if_pos (show w.completed + 1 = 64 by omega))

/-! ## What the transaction that waits and the held write get, one after the other -/

section Served
variable {s : State} {b : BankId}

/-- R23: the transaction that waits is OPEN on the bank it finds, and the other bank stays. -/
theorem served_opens (hb : s.findsBank b) :
    s.openWaiting.examineHold.txn = { s.txn with context := .opened b } ∧
      s.openWaiting.examineHold.bank b.other = s.bank b.other := by
  rw [examineHold_txn, examineHold_bank, openWaiting_finds hb]
  cases hs : s.slotAwaiting .bank with
  | none =>
    rw [openOn_captureNone s b hs, openedOn_bank_other]
    exact ⟨rfl, rfl⟩
  | some h =>
    obtain ⟨slot, awaits⟩ := State.slotAwaiting_spec hs
    rw [openOn_captureHeld s b slot awaits, openedOn_bank_other]
    exact ⟨rfl, by cases b <;> rfl⟩

/-- R47, R53, R77: the bank found takes the write held for it, and the slot is empty. -/
theorem served_captures (hb : s.findsBank b) {h : HeldWrite} (hs : s.host.slot = some h) (hw : h.awaits = .bank) :
    s.openWaiting.examineHold = s.slotEmptied.openedOn b h.capturedAlone := by
  rw [openWaiting_finds hb, openOn_captureHeld s b hs hw]
  refine examineHold_unheld (slotAwaiting_none fun x hx => ?_)
  rw [openedOn_host] at hx
  cases hx

/-- R53: the bank found is empty where no write is held for it. -/
theorem served_empty (hb : s.findsBank b) (hs : ∀ h, s.host.slot = some h → h.awaits ≠ .bank) :
    s.openWaiting.examineHold.bank b = .capturing := by
  rw [examineHold_bank, openWaiting_finds hb, openOn_captureNone s b (slotAwaiting_none hs), openedOn_bank_self]

end Served

/-- R11: the write in the slot awaits one thing. -/
theorem slot_awaits_ne {s : State} {h : HeldWrite} {w : Awaits} (hs : s.host.slot = some h) (hw : h.awaits ≠ w) :
    ∀ x, s.host.slot = some x → x.awaits ≠ w := by
  rw [hs]
  rintro x ⟨⟩
  exact hw

/-- Settles O33: the effects of the write, then what the transaction that waits gets, then the held write. -/
theorem freedBankServesWhatWaits : Obligations.FreedBankServesWhatWaits := by
  intro s a w wr hm hf hw hp hn hcar h0 h1 k0 k1 lower opens holder kept
  let m := writeLanes s.mem a ⟨true, true⟩ w
  let u := (s.portDone m).writeEffects wr
  have run : exec .anchorWordCompletion s = .next u.openWaiting.examineHold := by
    rw [exec_anchorWordCompletion_last hf hw hp hn, landed_write, completeWrite_run (s := s.portDone m) hp hcar h0 h1]
  have finds (ho : opens) : u.findsBank lower := ⟨hp, ho.1, (freeBank_eq_some_iff u lower).mpr ⟨ho.2, rfl⟩⟩
  have stays (ho : ¬opens) : u.openWaiting = u :=
    openWaiting_stays fun b ⟨_, waits, free⟩ => ho ⟨waits, ((freeBank_eq_some_iff u b).mp free).1⟩
  have host (hs : ∀ h, s.host.slot = some h → h.awaits ≠ .bank) : u.openWaiting.host = u.host :=
    openWaiting_host (slotAwaiting_none hs)
  have keeps (same : u.openWaiting.host = u.host) (unexamined : u.openWaiting.examineHold = u.openWaiting) :
      kept u.openWaiting.examineHold := by
    simp only [kept, unexamined, same, openWaiting_port]
    exact ⟨rfl, rfl, rfl⟩
  have unheld (same : u.openWaiting.host = u.host) (hs : ∀ h, s.host.slot = some h → h.awaits ≠ .holdCondition) :
      kept u.openWaiting.examineHold :=
    keeps same (examineHold_unheld (slotAwaiting_none (by rw [same]; exact hs)))
  refine ⟨m, _, writeLanes_stored hm a _ w, run, ?_, fun ho => ?_, fun ho => ⟨?_, ?_, ?_, ?_, ?_⟩, fun hs => ?_,
    fun h hs ha => ?_, fun h hs ha => ?_⟩
  · obtain ⟨_, _, _, _, _, eo⟩ := openWaiting_frame u
    obtain ⟨_, _, _, ee⟩ := examineHold_frame u.openWaiting
    rw [ee, eo]
    rfl
  · rw [stays ho]
    exact ⟨examineHold_txn u, examineHold_bank u .b0, examineHold_bank u .b1⟩
  · exact (served_opens (finds ho)).1
  · intro hl
    have other := (served_opens (finds ho)).2
    rwa [hl] at other
  · intro hl
    have other := (served_opens (finds ho)).2
    rwa [hl] at other
  · intro h hs hb
    rw [served_captures (finds ho) hs hb, openedOn_bank_self, openedOn_host]
    exact ⟨rfl, rfl, rfl, by cases lower <;> rfl⟩
  · exact served_empty (finds ho)
  · exact unheld (host (by simp [hs])) (by simp [hs])
  · rcases ha with ha | ⟨ha, ho⟩
    · exact unheld (host (slot_awaits_ne hs (by simp [ha]))) (slot_awaits_ne hs (by simp [ha]))
    · exact unheld (congrArg _ (stays ho)) (slot_awaits_ne hs (by simp [ha]))
  · have same := host (slot_awaits_ne hs (by simp [ha]))
    have slot : u.openWaiting.host.slot = some h := by rw [same]; exact hs
    have held : u.openWaiting.heldWord h.addr ↔ holder k0 h.addr ∨ holder k1 h.addr :=
      (openWaiting_heldWord u h.addr).trans (exists_bank .b0)
    refine ⟨fun no => ?_, fun yes => keeps same (examineHold_waits slot ha (held.mpr yes))⟩
    rw [examineHold_claims slot ha (fun e => no (held.mp e)), openWaiting_port, same]
    exact ⟨rfl, rfl, rfl⟩

end Sys2Proof.Machine
end

section
/-! The merge of a write into the entry of its word (R48), and O7. -/

namespace Sys2Proof.Machine

/-- R44: of entries with distinct addresses, one with the word of entry `i` is entry `i`. -/
theorem index_eq_of_addr_eq {es : List Entry} (hn : (es.map (·.addr)).Nodup) {i j : Nat} {e x : Entry}
    (he : es[i]? = some e) (hx : es[j]? = some x) (ha : x.addr = e.addr) : j = i := by
  obtain ⟨hj, -⟩ := List.getElem?_eq_some_iff.mp hx
  refine (List.getElem?_inj (by simpa using hj) hn).mp ?_
  simp only [List.getElem?_map, he, hx, Option.map_some, ha]

/-- R48: of entries with distinct addresses, a merge changes the one of the word alone. -/
theorem mergedAt_eq_set {es : List Entry} (hn : (es.map (·.addr)).Nodup) {i : Nat} {e : Entry} (he : es[i]? = some e)
    (d : Word) (l : Lanes) : mergedAt es e.addr d l = es.set i (mergeEntry e d l) := by
  obtain ⟨hi, -⟩ := List.getElem?_eq_some_iff.mp he
  refine List.ext_getElem? fun j => ?_
  rw [mergedAt, List.getElem?_map]
  by_cases hj : j = i
  · rw [hj, he, List.getElem?_set_self hi]
    simp
  · rw [List.getElem?_set_ne (Ne.symm hj)]
    cases hx : es[j]? with
    | none => rfl
    | some x =>
      have other_word : x.addr ≠ e.addr := fun ha => hj (index_eq_of_addr_eq hn he hx ha)
      simp [other_word]

/-- R48: a capture of the word of entry `i` merges into that entry, whatever the number of entries. -/
theorem captureEntries_merged {es : List Entry} (hn : (es.map (·.addr)).Nodup) {i : Nat} {e : Entry} (he : es[i]? = some e)
    (d : Word) (l : Lanes) : captureEntries es e.addr d l = some (es.set i (mergeEntry e d l)) := by
  have has_entry : es.any (·.addr == e.addr) = true := List.any_eq_true.mpr ⟨e, List.mem_of_getElem? he, beq_self_eq_true _⟩
  rw [← mergedAt_eq_set hn he]
  exact if_pos has_entry

/-- Settles O7: the capture finds the entry of the word. -/
theorem writeInOpenMergesIntoTheEntry : Obligations.WriteInOpenMergesIntoTheEntry := by
  rintro s a d l oe b i e h hl hc hk hn he rfl data merged
  rw [exec_hostWrite_routed e.addr d oe h hl (by simp [hc]), routeWrite_opened hk (by simpa using hc),
    capture_stored (by rw [onBus_bank]; exact captureEntries_merged hn he d l), onBus_bank]
  rfl

end Sys2Proof.Machine
end

section
/-! The sources of a word (R19, R44, R54, R62, R66, R67): which entries they are, the order they come in, and O11. -/

namespace Sys2Proof.Machine

section Sources
variable {s : State} {a : Addr} {e : Entry}

/-- R44, R62: in a sound bank the entry found for a word is the bank's entry of that word. -/
theorem lookup_eq_some_iff {k : Bank} (h : k.entriesSound) :
    k.lookup a = some e ↔ e ∈ k.entries ∧ e.addr = a := by
  obtain ⟨-, distinct, -⟩ := h
  constructor
  · exact fun found => ⟨List.mem_of_find?_eq_some found, by simpa using List.find?_some found⟩
  · rintro ⟨he, rfl⟩
    obtain ⟨x, hx⟩ : ∃ x, k.lookup e.addr = some x :=
      Option.isSome_iff_exists.mp (List.find?_isSome.mpr ⟨e, he, beq_self_eq_true _⟩)
    have same_word : x.addr = e.addr := by simpa using List.find?_some hx
    rw [hx, List.inj_on_of_nodup_map distinct (List.mem_of_find?_eq_some hx) he same_word]

/-! ## The committed banks, newest first (R54, R66) -/

@[simp] theorem BankId.other_other (b : BankId) : b.other.other = b := by cases b <;> rfl

/-- R54, R66: the committed banks come in the order of the banks' ranks. -/
theorem committedNewestFirst_eq (s : State) :
    ∃ b, (s.bank b.other).rank ≤ (s.bank b).rank ∧
      s.committedNewestFirst = [s.bank b, s.bank b.other].filter (·.state.committed) := by
  simp only [State.committedNewestFirst]
  split
  next lower => exact ⟨.b1, lower.le, rfl⟩
  next not_lower => exact ⟨.b0, Nat.not_lt.mp not_lower, rfl⟩

/-- R66: the committed banks are those the list holds. -/
theorem mem_committedNewestFirst {k : Bank} :
    k ∈ s.committedNewestFirst ↔ ∃ b, s.bank b = k ∧ k.state.committed = true := by
  obtain ⟨b, -, order⟩ := committedNewestFirst_eq s
  rw [order, List.mem_filter, exists_bank b, ← or_and_right]
  simp only [List.mem_cons, List.not_mem_nil, or_false, eq_comm (a := k)]

/-- R66: of two committed banks the one with the higher sequence number comes first. -/
theorem committedNewestFirst_of_rank_lt {b : BankId} (hb : (s.bank b).state.committed = true)
    (ho : (s.bank b.other).state.committed = true) (hlt : (s.bank b.other).rank < (s.bank b).rank) :
    s.committedNewestFirst = [s.bank b, s.bank b.other] := by
  obtain ⟨c, hle, order⟩ := committedNewestFirst_eq s
  rcases (exists_bank b (P := (c = ·))).mp ⟨c, rfl⟩ with rfl | rfl
  · rw [order, List.filter_eq_self]
    simp [hb, ho]
  · rw [BankId.other_other] at hle
    omega

/-! ## The sources (R66, R67) -/

/-- R66, R67: the bank in use supplies its entry of the word, a committed bank its entry where that is unapplied. -/
theorem mem_sources_iff :
    e ∈ s.sources a ↔ (∃ b, s.txn.context = .opened b ∧ (s.bank b).lookup a = some e) ∨
      ∃ b, (s.bank b).state.committed = true ∧ (s.bank b).lookup a = some e ∧ e.applied = false := by
  unfold State.sources
  rw [List.mem_append, List.mem_filterMap]
  refine or_congr ?_ ?_
  · cases s.txn.context <;> simp
  · simp only [mem_committedNewestFirst, Option.filter_eq_some_iff, Bool.not_eq_true']
    constructor
    · rintro ⟨_, ⟨b, rfl, hb⟩, found⟩
      exact ⟨b, hb, found⟩
    · rintro ⟨b, hb, found⟩
      exact ⟨_, ⟨b, rfl, hb⟩, found⟩

/-- R66: with no bank in use the sources are those of the committed banks. -/
theorem sources_not_opened (h : ∀ b, s.txn.context ≠ .opened b) :
    s.sources a = s.committedNewestFirst.filterMap fun k => (k.lookup a).filter fun e => !e.applied := by
  unfold State.sources
  cases hc : s.txn.context with
  | opened b => exact absurd hc (h b)
  | idle | slotWait | voided => rfl

/-- R19: two committed banks leave no bank in use. -/
theorem not_opened_of_committed (h : s.contextSound) {b : BankId} (hb : (s.bank b).state.committed = true)
    (ho : (s.bank b.other).state.committed = true) (c : BankId) : s.txn.context ≠ .opened c := by
  intro hc
  have capturing : (s.bank c).state = .capture := (h c).mp hc
  have committed : (s.bank c).state.committed = true :=
    (forall_bank b (P := fun c => (s.bank c).state.committed = true)).mpr ⟨hb, ho⟩ c
  simp [capturing, BankState.committed] at committed

/-- R66, R67: of two committed banks the unapplied entry of the newer one is the newest source. -/
theorem sources_head_of_committed (hn : ∀ b, s.txn.context ≠ .opened b) {b : BankId}
    (hb : (s.bank b).state.committed = true) (ho : (s.bank b.other).state.committed = true)
    (hlt : (s.bank b.other).rank < (s.bank b).rank) (found : (s.bank b).lookup a = some e) (ha : e.applied = false) :
    (s.sources a).head? = some e := by
  rw [sources_not_opened hn, committedNewestFirst_of_rank_lt hb ho hlt, List.filterMap_cons_some (b := e)]
  · rfl
  · simp [found, ha]

end Sources

/-- Settles O11: an entry of a sound bank is what a lookup of its word finds. -/
theorem sourcesAreNewestFirst : Obligations.SourcesAreNewestFirst := by
  intro s a e banks context
  have entry_iff (b : BankId) : (s.bank b).lookup a = some e ↔ e ∈ (s.bank b).entries ∧ e.addr = a :=
    lookup_eq_some_iff (banks b).1
  refine ⟨?_, fun b hc he ha => ?_, fun b hb ho hlt he ha hu => ?_⟩
  · simp only [mem_sources_iff, entry_iff, ← exists_or]
    exact exists_congr fun b => by tauto
  · obtain ⟨es, hes⟩ := sources_opened hc ((entry_iff b).mpr ⟨he, ha⟩)
    rw [hes, List.head?_cons]
  · exact sources_head_of_committed (not_opened_of_committed context hb ho) hb ho hlt ((entry_iff b).mpr ⟨he, ha⟩) hu

end Sys2Proof.Machine
end

section
/-! The log writer (R86 to R94, R97) and what the engines claim next (R92, R120, R122, R135, R139), and O24, O26 and O27. -/

namespace Sys2Proof.Machine

/-! ## The log writer takes a bank (R90, R91) -/

/-- R88: an image fits the free space where the used words and its own keep within the log. -/
theorem le_freeSpace_iff (s : State) (n : Nat) : imageSize n ≤ s.freeSpace ↔ s.log.used + (3 * n + 8) ≤ s.anchor.image.logSize := by
  simp only [imageSize, State.freeSpace]
  omega

/-- R90: the IDLE log writer in RUN takes the oldest bank in LOG_WAIT if its image fits. -/
theorem logTake_oldest {s : State} {b : BankId} (hp : s.start.part = .run) (hj : s.log.job = none)
    (hb : s.oldestIn .logWait = some b) :
    s.logTake = if imageSize (s.bank b).entries.length ≤ s.freeSpace then s.takeForLog b else s := by
  simp only [State.logTake, hp, hj, hb, and_self, if_true]

/-- Settles O26: the bank is the oldest in LOG_WAIT, and its image fits the free space or does not. -/
theorem logWriterTakesTheOldestBank : Obligations.LogWriterTakesTheOldestBank := by
  intro s b hp hj hb hrank z
  have take : exec .logWriterTake s =
      .next (if imageSize (s.bank b).entries.length ≤ s.freeSpace then s.takeForLog b else s) :=
    congrArg Host.Outcome.next (logTake_oldest hp hj (oldestIn_eq hb hrank))
  rw [take]
  refine ⟨fun fits => ?_, fun short => ?_⟩
  · rw [if_pos ((le_freeSpace_iff s _).mpr fits)]
    rfl
  · rw [if_neg (fun h => absurd ((le_freeSpace_iff s _).mp h) (Nat.not_le.mpr short))]

/-! ## An image word completes (R92, R94, R97) -/

section ImageWord
variable {s : State} {x : Access} {j : LogJob}

/-- R92, R97: the image word in flight lands; in RUN, and there alone, the log writer goes on. -/
theorem exec_imageWordCompletion (hf : s.port.inFlight = some ⟨.log, x⟩) (hj : s.log.job = some j) :
    exec .imageWordCompletion s = .next (if s.start.part = .run then (s.landed x).imageWordDone j else s.landed x) := by
  show Host.Outcome.next s.imageCompletion = _
  simp only [State.imageCompletion, flightOf_eq hf, hj]

/-- R94: the image word at which a bank's group becomes durable is COMMIT word 3. -/
theorem imageWordDone_last (h : j.words + 1 = imageSize (s.bank j.bank).entries.length) :
    s.imageWordDone j = s.durable j.bank := if_pos h

theorem imageWordDone_next (h : j.words + 1 ≠ imageSize (s.bank j.bank).entries.length) :
    s.imageWordDone j = { s with log := { s.log with job := some ⟨j.bank, j.words + 1⟩ } } := if_neg h

end ImageWord

@[simp] theorem portDone_bank (s : State) (m : Memory) (b : BankId) : (s.portDone m).bank b = s.bank b := by cases b <;> rfl

/-- Settles O27: the word lands, and what the log writer then does depends on the part state and the words left. -/
theorem imageWordLands : Obligations.ImageWordLands := by
  intro s a w b n hm hf hj
  rw [exec_imageWordCompletion hf hj, landed_write]
  refine ⟨_, writeLanes_stored hm a _ w, fun hp hn => ?_, fun hp hn => ?_, fun hp => ?_⟩
  · rw [if_pos hp, imageWordDone_next (by rwa [portDone_bank])]
    rfl
  · rw [if_pos hp, imageWordDone_last (by rwa [portDone_bank]), State.durable, portDone_bank, countOnce_eq]
    simp only [State.setBank_log, State.setBank_mgmt]
    rfl
  · rw [if_neg (by rw [hp]; decide)]

/-! ## Claims (R135) -/

theorem flightOf_eq_none_iff (s : State) (who : Claimant) :
    s.flightOf who = none ↔ ∀ f, s.port.inFlight = some f → f.who ≠ who := by
  unfold State.flightOf
  cases s.port.inFlight <;> simp

/-- R135: a claimant claims where it has no claim waiting and none in flight. -/
theorem canClaim_iff (s : State) (who : Claimant) : s.canClaim who = true ↔ ¬s.claims who := by
  simp only [State.canClaim, State.claims, Bool.and_eq_true, Option.isNone_iff_eq_none, flightOf_eq_none_iff, not_or,
    not_exists, not_and, not_not, ne_eq]

section Claim
variable {s : State}

theorem exec_memoryClaim (s : State) (who : Claimant) : exec (.memoryClaim who) s = .next (s.nextClaim who) := rfl

/-- R135: a claimant with a claim waiting or in flight makes none. -/
theorem nextClaim_claims {who : Claimant} (h : s.claims who) : s.nextClaim who = s :=
  if_neg fun hc => (canClaim_iff s who).mp hc h

/-! ## A claimant with nothing to claim -/

/-- R90, R98: the log writer has no image to write, or works no longer. -/
theorem claimLog_idle (h : s.log.job = none ∨ s.start.part ≠ .run) : s.claimLog = s := by
  unfold State.claimLog
  rcases h with hj | hp
  · rw [hj]
  · cases s.log.job with
    | none => rfl
    | some j => exact if_neg hp

/-- R118, R120: the anchor writer has no write in flight, or does not work in the part state. -/
theorem claimAnchor_idle (h : s.anchor.write = none ∨ s.start.part.anchorWorks = false) : s.claimAnchor = s := by
  unfold State.claimAnchor
  rcases h with hw | hp
  · rw [hw]
  · cases s.anchor.write with
    | none => rfl
    | some w => simp only [hp, Bool.false_eq_true, if_false]

theorem startupWorks_iff (s : State) :
    s.startupWorks = true ↔ (s.start.part = .startup ∧ s.pins.rstHigh = true) ∨ s.start.part = .recovery := by
  simp [State.startupWorks]

/-- R139, R144, R154: the start-up controller does not work, waits for the closing write, or has ended its work. -/
theorem claimStartup_idle (h : ¬s.startupWorks = true ∨ s.start.phase = .closing ∨ s.start.phase = .done) :
    s.claimStartup = s := by
  unfold State.claimStartup
  rcases h with hw | hp | hp
  · cases s.startupClaim with
    | none => rfl
    | some x => exact if_neg hw
  · simp only [State.startupClaim, hp]
  · simp only [State.startupClaim, hp]

/-! ## A claim made -/

/-- R92: the image word the log writer claims next, at its place in the log. -/
theorem imageClaim_eq {b : BankId} {n : Nat} {q : DWord} {i : ImageSpan} (hq : (s.bank b).seq = some q)
    (hi : (s.bank b).image = some i) :
    s.imageClaim ⟨b, n⟩ = ⟨true, s.logWord (i.start + n), bothLanes, imageWord q (s.bank b).entries s.log.crc n⟩ := by
  simp only [State.imageClaim, hq, hi, Option.getD_some]

/-- R86, R92: the log writer claims, and takes the word into the CRC where it is one of BEGIN or of an ENTRY. -/
theorem claimLog_writes {j : LogJob} (hp : s.start.part = .run) (hj : s.log.job = some j) :
    s.claimLog = ({ s with log := { s.log with crc := s.crcAfterClaim j } } : State).claim .log (s.imageClaim j) := by
  simp only [State.claimLog, hj, hp, if_true]

/-- R122: the anchor writer claims the next word of its write. -/
theorem claimAnchor_writes {w : AnchorWrite} (hp : s.start.part.anchorWorks = true) (hw : s.anchor.write = some w) :
    s.claimAnchor = s.claim .anchor w.nextClaim := by
  simp only [State.claimAnchor, hw, hp, if_true]

/-- R139, R147: the start-up controller claims its next word. -/
theorem claimStartup_reads {x : Access} (hw : s.startupWorks = true) (hx : s.startupClaim = some x) :
    s.claimStartup = s.claim .startup x := by
  simp only [State.claimStartup, hx, hw, if_true]

/-- R147: the start-up controller's next anchor word. -/
theorem startupClaim_anchors {words : List Word} (hp : s.start.phase = .anchors words) (hl : words.length < 128) :
    s.startupClaim = some (readClaim (BitVec.ofNat 20 words.length)) := by
  simp only [State.startupClaim, hp]
  exact if_pos hl

end Claim

/-- R122: the claim of an anchor write's next word, at its place in the target copy. -/
theorem AnchorWrite.nextClaim_eq (w : AnchorWrite) : w.nextClaim =
    ⟨true, BitVec.ofNat 20 ((match w.target with | .a => 0 | .b => 64) + w.completed), bothLanes, w.snapshot.getD w.completed 0⟩ := by
  unfold AnchorWrite.nextClaim
  cases w.target <;> rfl

/-- Settles O24: each claimant's claim where it has one to make, and none where it has not. -/
theorem claimsOfTheEngines : Obligations.ClaimsOfTheEngines := by
  intro s who
  rw [exec_memoryClaim]
  refine ⟨fun h => by rw [nextClaim_claims h], ?_, ?_, ?_, ?_, ?_, fun free => ?_⟩
  · rintro rfl
    simp only [State.nextClaim, ite_self]
  · rintro rfl h
    have untaken : s.takeWaiting = s := if_neg fun ready => h ((cycleReady_iff s).mp ready)
    simp only [State.nextClaim, untaken, ite_self]
  · rintro rfl h
    simp only [State.nextClaim, claimLog_idle h, ite_self]
  · rintro rfl h
    have idle : s.anchor.write = none ∨ s.start.part.anchorWorks = false :=
      h.imp_right (by rintro (hp | hp | hp) <;> rw [hp] <;> rfl)
    simp only [State.nextClaim, claimAnchor_idle idle, ite_self]
  · rintro rfl h
    have idle : ¬s.startupWorks = true ∨ s.start.phase = .closing ∨ s.start.phase = .done := by
      rw [startupWorks_iff]
      rcases h with ⟨hp, hr⟩ | hc | hd | hp
      · simp [hp, hr]
      · exact .inr (.inl hc)
      · exact .inr (.inr hd)
      · exact .inl (by tauto)
    simp only [State.nextClaim, claimStartup_idle idle, ite_self]
  · have claims := (canClaim_iff s who).mpr free
    refine ⟨?_, ?_, ?_⟩
    · rintro b n q i rfl hp hj hq hi
      simp only [State.nextClaim, claims, if_true, claimLog_writes hp hj, State.crcAfterClaim, imageClaim_eq hq hi]
      rfl
    · rintro w rfl hp hw
      simp only [State.nextClaim, claims, if_true, claimAnchor_writes (anchorWorks_of_part hp) hw, AnchorWrite.nextClaim_eq]
      rfl
    · rintro words rfl hp hr ha hl
      have works := (startupWorks_iff s).mpr (.inl ⟨hp, hr⟩)
      simp only [State.nextClaim, claims, if_true, claimStartup_reads works (startupClaim_anchors ha hl)]
      rfl

end Sys2Proof.Machine
end

section
/-! The journal's words (R82 to R86) and the scan that reads them back (R150, R151), and O60. -/

namespace Sys2Proof.Machine

/-! ## The CRC (R85) -/

theorem crcBit_eq (c : Word) (b : Bool) :
    crcBit c b = if c.getLsbD 15 = b then c <<< 1 else (c <<< 1) ^^^ 0x1021 := by
  have top : c.msb = c.getLsbD 15 := BitVec.msb_eq_getLsbD_last c
  unfold crcBit
  rw [top]
  cases c.getLsbD 15 <;> cases b <;> rfl

theorem crcWords_append (ws vs : List Word) : crcWords (ws ++ vs) = vs.foldl crcWord (crcWords ws) := List.foldl_append

/-- R85: the check value of the data sheet. -/
theorem crcWords_zero : crcWords [0x0000] = 0x1D0F := by simp [crcWords, crcWord, crcBit_eq, crcInit]

/-! ## The words of an ENTRY record (R83, R84) -/

/-- R83, R84: the first word of an ENTRY record, of its lane set and address bits 19:16: every bit not named 0. -/
def entryHead (l : Lanes) (high : BitVec 4) : Word :=
  0x5#4 ++ BitVec.ofBool l.upper ++ BitVec.ofBool l.lower ++ 0#6 ++ high

section EntryHead
variable (l : Lanes) (high : BitVec 4)

theorem recordKind_entryHead : recordKind (entryHead l high) = 0x5 := by
  obtain ⟨upper, lower⟩ := l
  revert upper lower high
  decide

theorem recordLanes_entryHead : recordLanes (entryHead l high) = l := by
  obtain ⟨upper, lower⟩ := l
  revert upper lower high
  decide

theorem joinAddr_entryHead (low : Word) : joinAddr (entryHead l high) low = high ++ low := by
  have high_bits : (entryHead l high).extractLsb' 0 4 = high := by
    obtain ⟨upper, lower⟩ := l
    revert upper lower high
    decide
  rw [joinAddr, high_bits]

theorem laneCode_or_high : BitVec.ofNat 16 (0x5000 + 0x400 * laneCode l) ||| high.setWidth 16 = entryHead l high := by
  obtain ⟨upper, lower⟩ := l
  revert upper lower high
  decide

end EntryHead

theorem addrHigh_eq (a : Addr) : addrHigh a = (a.extractLsb' 16 4).setWidth 16 := by
  apply BitVec.eq_of_toNat_eq
  have := a.isLt
  simp [addrHigh, BitVec.extractLsb'_toNat, Nat.shiftRight_eq_div_pow]
  omega

theorem entryRecord_eq (e : Entry) :
    entryRecord e = [entryHead e.lanes (e.addr.extractLsb' 16 4), e.addr.extractLsb' 0 16, e.data] := by
  rw [entryRecord, addrHigh_eq, laneCode_or_high, addrLow]

/-- R83: the two words of an ENTRY record that carry its address spell it. -/
theorem joinAddr_entry (e : Entry) :
    joinAddr (entryHead e.lanes (e.addr.extractLsb' 16 4)) (e.addr.extractLsb' 0 16) = e.addr := by
  rw [joinAddr_entryHead]
  exact BitVec.extractLsb'_append_extractLsb'

/-- R151: the replay of an ENTRY record writes what the entry's home write writes. -/
theorem replayWrite_entryRecord (e : Entry) : replayWrite (entryRecord e) = ⟨true, e.addr, e.lanes, e.data⟩ := by
  rw [entryRecord_eq]
  simp only [replayWrite, List.getD_cons_zero, List.getD_cons_succ, joinAddr_entry, recordLanes_entryHead]

/-! ## The place of an image word (R82) -/

theorem imagePlace_begin {i : Nat} (h : i < 4) (n : Nat) : imagePlace i n = .begin i := if_pos h

theorem imagePlace_entry {j n i : Nat} (hj : j < n) (hi : i < 3) : imagePlace (4 + 3 * j + i) n = .entry i := by
  rw [imagePlace, if_neg (by omega), if_pos (by omega), show (4 + 3 * j + i - 4) % 3 = i by omega]

theorem imagePlace_commit (n i : Nat) : imagePlace (4 + 3 * n + i) n = .commit i := by
  rw [imagePlace, if_neg (by omega), if_neg (by omega), show 4 + 3 * n + i - 4 - 3 * n = i by omega]

/-! ## The scan, word by word (R150) -/

/-- R150: one word given to the start-up controller: the scan takes it, and any other work of it does not. -/
def State.scanRead (t : State) (w : Word) : State :=
  match t.start.phase with
  | .scan word count head => t.scanWord word count head w
  | _ => t

/-- R150: the scan at a place of its image, with the CRC of the words before. -/
def State.scanAt (s : State) (crc : Word) (phase : StartupPhase) : State :=
  { s with start := { s.start with scan := { s.start.scan with crc := crc }, phase := phase } }

theorem scanAt_self {s : State} {phase : StartupPhase} (h : s.start.phase = phase) :
    s.scanAt s.start.scan.crc phase = s := by
  subst h
  rfl

section Scan
variable {s : State} {n : Nat}

/-- R150: a word that passes its test is taken into the CRC, and the scan goes on to its next place. -/
theorem scanRead_passes {crc crc' head w : Word} {word count : Nat} {place : ImagePlace} {next : StartupPhase}
    (hp : imagePlace word count = place) (hn : scanNext place word count head w = next) (hc : scanCrc crc place w = crc')
    (pass : (s.scanAt crc (.scan word count head)).scanTest place head w = true) :
    (s.scanAt crc (.scan word count head)).scanRead w = s.scanAt crc' next := by
  subst hp hn hc
  exact if_pos pass

/-- R83, R150: the scan passes the BEGIN record of the image it expects. -/
theorem scan_beginRecord (h1 : 1 ≤ n) (h2 : n ≤ 256) (fits : s.start.scan.scanned + (3 * n + 8) ≤ s.anchor.image.logSize)
    (crc : Word) :
    (beginRecord s.start.scan.expected n).foldl State.scanRead (s.scanAt crc (.scan 0 0 0)) =
      s.scanAt (crcWords (beginRecord s.start.scan.expected n)) (.scan 4 n 0) := by
  have count : (BitVec.ofNat 16 n).toNat = n := by
    rw [BitVec.toNat_ofNat]
    omega
  have word0 (c : Word) : (s.scanAt c (.scan 0 0 0)).scanRead 0xA000 = s.scanAt (crcWord crcInit 0xA000) (.scan 1 0 0) :=
    scanRead_passes rfl rfl rfl rfl
  have word1 (c : Word) : (s.scanAt c (.scan 1 0 0)).scanRead (highHalf s.start.scan.expected) =
      s.scanAt (crcWord c (highHalf s.start.scan.expected)) (.scan 2 0 0) :=
    scanRead_passes rfl rfl rfl (beq_self_eq_true _)
  have word2 (c : Word) : (s.scanAt c (.scan 2 0 0)).scanRead (lowHalf s.start.scan.expected) =
      s.scanAt (crcWord c (lowHalf s.start.scan.expected)) (.scan 3 0 0) :=
    scanRead_passes rfl rfl rfl (beq_self_eq_true _)
  have word3 (c : Word) : (s.scanAt c (.scan 3 0 0)).scanRead (BitVec.ofNat 16 n) =
      s.scanAt (crcWord c (BitVec.ofNat 16 n)) (.scan 4 n 0) :=
    scanRead_passes rfl (congrArg (StartupPhase.scan 4 · 0) count) rfl ((countFits_iff _ _).mpr (by rw [count]; exact ⟨h1, h2, fits⟩))
  simp only [beginRecord, List.foldl_cons, List.foldl_nil, word0, word1, word2, word3, crcWords]

/-- R83, R150: the scan passes three words with the ENTRY kind, a lane, and the address of a word of home memory. -/
theorem scan_entryWords {first low data : Word} {j : Nat} (hj : j < n) (kind : recordKind first = 0x5)
    (lanes : noLane (recordLanes first) = false) (home : s.entryAddrOk (joinAddr first low) = true) (crc head : Word) :
    [first, low, data].foldl State.scanRead (s.scanAt crc (.scan (4 + 3 * j) n head)) =
      s.scanAt ([first, low, data].foldl crcWord crc) (.scan (4 + 3 * (j + 1)) n first) := by
  have word0 : (s.scanAt crc (.scan (4 + 3 * j) n head)).scanRead first =
      s.scanAt (crcWord crc first) (.scan (4 + 3 * j + 1) n first) :=
    scanRead_passes (imagePlace_entry hj (i := 0) (by decide)) rfl rfl (by simp [State.scanTest, kind, lanes])
  have word1 (c : Word) : (s.scanAt c (.scan (4 + 3 * j + 1) n first)).scanRead low =
      s.scanAt (crcWord c low) (.scan (4 + 3 * j + 2) n first) :=
    scanRead_passes (imagePlace_entry hj (by decide)) rfl rfl home
  have word2 (c : Word) : (s.scanAt c (.scan (4 + 3 * j + 2) n first)).scanRead data =
      s.scanAt (crcWord c data) (.scan (4 + 3 * (j + 1)) n first) :=
    scanRead_passes (imagePlace_entry hj (by decide)) rfl rfl rfl
  simp only [List.foldl_cons, List.foldl_nil, word0, word1, word2]

/-- R83, R84, R150: the scan passes the ENTRY record of an entry with a lane, in home memory. -/
theorem scan_entryRecord {e : Entry} {j : Nat} (hj : j < n) (lanes : noLane e.lanes = false)
    (home : s.entryAddrOk e.addr = true) (crc head : Word) :
    ∃ first, (entryRecord e).foldl State.scanRead (s.scanAt crc (.scan (4 + 3 * j) n head)) =
      s.scanAt ((entryRecord e).foldl crcWord crc) (.scan (4 + 3 * (j + 1)) n first) := by
  rw [entryRecord_eq]
  exact ⟨_, scan_entryWords hj (recordKind_entryHead _ _) (by rw [recordLanes_entryHead, lanes])
    (by rw [joinAddr_entry, home]) crc head⟩

/-- R82, R150: the scan passes the ENTRY records of the image from entry `j` on. -/
theorem scan_entryRecords {es : List Entry} (sound : ∀ e ∈ es, noLane e.lanes = false ∧ s.entryAddrOk e.addr = true)
    {j : Nat} (hn : j + es.length = n) (crc head : Word) :
    ∃ last, (es.flatMap entryRecord).foldl State.scanRead (s.scanAt crc (.scan (4 + 3 * j) n head)) =
      s.scanAt ((es.flatMap entryRecord).foldl crcWord crc) (.scan (4 + 3 * n) n last) := by
  induction es generalizing j crc head with
  | nil => exact ⟨head, by rw [← hn]; rfl⟩
  | cons e es ih =>
    obtain ⟨⟨lanes, home⟩, rest⟩ := List.forall_mem_cons.mp sound
    rw [List.length_cons] at hn
    obtain ⟨first, passed⟩ := scan_entryRecord (j := j) (n := n) (by omega) lanes home crc head
    simp only [List.flatMap_cons, List.foldl_append, passed]
    exact ih rest (by omega) _ first

/-- R83, R86, R150: the scan passes a COMMIT record with the CRC of the words before, and goes on to the replay. -/
theorem scan_commitRecord (crc head : Word) :
    (commitRecord s.start.scan.expected crc).foldl State.scanRead (s.scanAt crc (.scan (4 + 3 * n) n head)) =
      s.scanAt crc (.replay n 0 []) := by
  have word0 : (s.scanAt crc (.scan (4 + 3 * n) n head)).scanRead 0xC000 =
      s.scanAt crc (.scan (4 + 3 * n + 1) n head) :=
    scanRead_passes (imagePlace_commit n 0) rfl rfl rfl
  have word1 : (s.scanAt crc (.scan (4 + 3 * n + 1) n head)).scanRead (highHalf s.start.scan.expected) =
      s.scanAt crc (.scan (4 + 3 * n + 2) n head) :=
    scanRead_passes (imagePlace_commit n 1) rfl rfl (beq_self_eq_true _)
  have word2 : (s.scanAt crc (.scan (4 + 3 * n + 2) n head)).scanRead (lowHalf s.start.scan.expected) =
      s.scanAt crc (.scan (4 + 3 * n + 3) n head) :=
    scanRead_passes (imagePlace_commit n 2) rfl rfl (beq_self_eq_true _)
  have word3 : (s.scanAt crc (.scan (4 + 3 * n + 3) n head)).scanRead crc = s.scanAt crc (.replay n 0 []) :=
    scanRead_passes (imagePlace_commit n 3) rfl rfl (beq_self_eq_true _)
  simp only [commitRecord, List.foldl_cons, List.foldl_nil, word0, word1, word2, word3]

/-- R82 to R86, R150: the scan passes every word of the image it expects, and goes on to its replay. -/
theorem scan_wholeImage {es : List Entry} (h1 : 1 ≤ es.length) (h2 : es.length ≤ 256)
    (sound : ∀ e ∈ es, noLane e.lanes = false ∧ s.entryAddrOk e.addr = true)
    (fits : s.start.scan.scanned + (3 * es.length + 8) ≤ s.anchor.image.logSize) (hp : s.start.phase = .scan 0 0 0) :
    (wholeImage s.start.scan.expected es).foldl State.scanRead s =
      s.scanAt (crcWords (imageBody s.start.scan.expected es)) (.replay es.length 0 []) := by
  have begins := scan_beginRecord h1 h2 fits s.start.scan.crc
  rw [scanAt_self hp] at begins
  obtain ⟨last, entries⟩ := scan_entryRecords sound (j := 0) (Nat.zero_add _)
    (crcWords (beginRecord s.start.scan.expected es.length)) 0
  rw [← crcWords_append] at entries
  rw [wholeImage, List.foldl_append, imageBody, List.foldl_append, begins, entries, scan_commitRecord]

end Scan

/-- Settles O60: the scan passes each record of the image in turn, and each ENTRY record spells its entry. -/
theorem scanFindsTheWrittenImage : Obligations.ScanFindsTheWrittenImage := by
  refine ⟨⟨fun crc w => ?_, rfl, fun ws w => crcWords_append ws [w], crcWords_zero⟩, fun q es => ?_, ?_⟩
  · exact congrArg (fun f => List.foldl (fun c i => f c (w.getLsbD i)) crc _) (funext₂ crcBit_eq)
  · have body : imageBody q es = beginRecord q es.length ++ es.flatMap fun e =>
        [entryHead e.lanes (e.addr.extractLsb' 16 4), e.addr.extractLsb' 0 16, e.data] := by
      rw [imageBody, funext entryRecord_eq]
    exact ⟨body, rfl⟩
  · intro s es _ h1 h2 sound fits hp
    refine ⟨scan_wholeImage h1 h2 (fun e he => ?_) fits hp, fun e _ => replayWrite_entryRecord e⟩
    obtain ⟨⟨lanes, -⟩, home⟩ := sound e he
    exact ⟨lanes, (entryAddrOk_iff s e.addr).mpr home⟩

end Sys2Proof.Machine
end

section
/-! The apply engine (R59, R60, R73, R100 to R110): the bank it takes, the entry it chooses, the home write that lands and
the last one, which retires the bank's image; O28, O29 and O30. -/

namespace Sys2Proof.Machine

/-! ## The apply engine takes a bank (R59, R73, R101) -/

section Take
variable {s : State} {b : BankId}

/-- R59, R101: the apply engine may take a bank where the other, if it waits or is being applied, is the younger one. -/
theorem noOlderToApply_of_rank_lt
    (h : (s.bank b.other).state = .applyWait ∨ (s.bank b.other).state = .applying → (s.bank b).rank < (s.bank b.other).rank) :
    s.noOlderToApply b = true := by
  simp only [State.noOlderToApply, Bool.not_eq_true', Bool.and_eq_false_imp, Bool.or_eq_true, beq_iff_eq,
    decide_eq_false_iff_not, Nat.not_lt]
  exact fun waits => (h waits).le

/-- R101: the IDLE apply engine in RUN takes the oldest bank in APPLY_WAIT. -/
theorem applyTake_oldest (hp : s.start.part = .run) (ha : s.apply.bank = none) (hb : s.oldestIn .applyWait = some b)
    (ho : s.noOlderToApply b = true) : s.applyTake = (s.takeForApply b).promoteHeld b := by
  simp only [State.applyTake, hp, ha, hb, ho, and_self, if_true]

theorem takeForApply_bank (s : State) (b : BankId) :
    (s.takeForApply b).bank b = { s.bank b with state := .applying, target := none } := by cases b <;> rfl

theorem takeForApply_setBank (s : State) (b : BankId) (k : Bank) :
    (s.takeForApply b).setBank b k = { s.setBank b k with apply := ⟨some b, none⟩ } := by cases b <;> rfl

@[simp] theorem takeForApply_host (s : State) (b : BankId) : (s.takeForApply b).host = s.host := State.setBank_host s b _

/-- R73: no write is held awaiting the hold condition, and no promotion is requested. -/
theorem promoteHeld_unheld (h : s.slotAwaiting .holdCondition = none) : s.promoteHeld b = s := by
  simp only [State.promoteHeld, h]

/-- R73: a promotion is requested for the word of the write held awaiting the hold condition. -/
theorem promoteHeld_held {h : HeldWrite} (hs : s.slotAwaiting .holdCondition = some h) :
    s.promoteHeld b = s.promoteIn b h.addr := by
  simp only [State.promoteHeld, hs]

end Take

/-- Settles O28: the bank is the oldest in APPLY_WAIT, and a write is held awaiting the hold condition or none is. -/
theorem applyEngineTakesTheOldestBank : Obligations.ApplyEngineTakesTheOldestBank := by
  intro s b hp ha hb hrank k taken
  have take : exec .applyTake s = .next ((s.takeForApply b).promoteHeld b) :=
    congrArg Host.Outcome.next (applyTake_oldest hp ha (oldestIn_eq hb fun waits => hrank (.inl waits))
      (noOlderToApply_of_rank_lt hrank))
  rw [take]
  refine ⟨fun unheld => ?_, fun h hs hw => ?_⟩
  · rw [promoteHeld_unheld (slotAwaiting_none (by simpa using unheld))]
    rfl
  · obtain ⟨k', promoted, promotes⟩ := promoteIn_spec (s.takeForApply b) b h.addr
    rw [takeForApply_bank] at promoted
    rw [promoteHeld_held (slotAwaiting_some (by simpa using hs) hw), promotes, takeForApply_setBank]
    exact ⟨k', promoted, rfl⟩

/-! ## The apply engine chooses an entry (R102, R103) -/

theorem choice_target {k : Bank} {i : Nat} (h : k.target = some i) : k.choice = some i := by
  simp only [Bank.choice, h]

/-- R102: with no target the lowest unapplied position is chosen. -/
theorem choice_firstUnapplied {k : Bank} {i : Nat} {e : Entry} (ht : k.target = none)
    (h : firstUnapplied k.entries (fun _ => True) i e) : k.choice = some i := by
  obtain ⟨he, -, unapplied, first⟩ := h
  obtain ⟨hi, rfl⟩ := List.getElem?_eq_some_iff.mp he
  simp only [Bank.choice, ht, List.findIdx?_eq_some_iff_getElem]
  refine ⟨hi, by simp [unapplied], fun j hj => ?_⟩
  simpa using first j hj _ (List.getElem?_eq_getElem (hj.trans hi))

/-- R102, R103: the apply engine in RUN with a current bank and nothing claimed goes on with the position chosen. -/
theorem applyChoice_chooses {s : State} {b : BankId} {i : Nat} {e : Entry} (hp : s.start.part = .run)
    (hb : s.apply.bank = some b) (hi : s.apply.inFlight = none) (hc : s.canClaim .apply = true)
    (choice : (s.bank b).choice = some i) (he : (s.bank b).entries[i]? = some e) : s.applyChoice = s.chooseEntry i e := by
  simp only [State.applyChoice, hb, hp, hi, hc, choice, he, and_self, if_true]

/-- Settles O29: the position chosen is the target, or with none the lowest unapplied. -/
theorem applyEngineChoosesAnEntry : Obligations.ApplyEngineChoosesAnEntry := by
  intro s b i e hp hb hi hw hf chosen
  have unclaimed : ¬s.claims .apply := by
    rintro (waiting | ⟨f, flight, own⟩)
    · exact waiting hw
    · exact hf f flight own
  obtain ⟨choice, he⟩ : (s.bank b).choice = some i ∧ (s.bank b).entries[i]? = some e := by
    rcases chosen with ⟨target, he⟩ | ⟨target, first⟩
    · exact ⟨choice_target target, he⟩
    · exact ⟨choice_firstUnapplied target first, first.1⟩
  exact congrArg Host.Outcome.next (applyChoice_chooses hp hb hi ((canClaim_iff s .apply).mpr unclaimed) choice he)

/-! ## A home write lands (R60, R104, R105, R110, R120) -/

section HomeWrite
variable {s : State} {b : BankId} {i : Nat}

/-- R104, R110: the home write in flight lands; in RUN, and there alone, its entry is applied. -/
theorem exec_homeWriteCompletion {x : Access} (hf : s.port.inFlight = some ⟨.apply, x⟩) (ha : s.apply = ⟨some b, some i⟩) :
    exec .homeWriteCompletion s =
      .next (if s.start.part = .run then (s.landed x).homeWriteDone b i else s.landed x) := by
  show Host.Outcome.next s.homeCompletion = _
  simp only [State.homeCompletion, flightOf_eq hf, ha]

/-- R120: a request starts a write where none is in flight, and is pending behind one that is. -/
theorem requestWrite_starts (h : s.anchor.write = none) : s.requestWrite = s.startWrite := by
  simp only [State.requestWrite, h, Option.isNone_none, if_true]

theorem requestWrite_pends (h : s.anchor.write ≠ none) :
    s.requestWrite = { s with anchor := { s.anchor with pending := true } } :=
  if_neg (by simpa using h)

/-- R81, R105: the bank is RETIRING, the tail of the in-part image passes the bank's image, and an anchor write is requested. -/
theorem retire_eq {p : ImageSpan} {q : DWord} (hi : (s.bank b).image = some p) (hq : (s.bank b).seq = some q) :
    s.retire b = ({ s.setBank b { s.bank b with state := .retiring, target := none } with
      apply := ⟨none, none⟩
      anchor := { s.anchor with image := { s.anchor.image with
        tail := (p.start + p.size) % s.anchor.image.logSize, tailSeq := q + 1 } } } : State).requestWrite := by
  simp only [State.retire, State.imageEnd, hi, hq, Option.getD_some]

/-- R60, R104: position i of the bank is applied, and nothing of the apply engine is in flight. -/
def State.applied (s : State) (b : BankId) (i : Nat) : State :=
  { s.setBank b ((s.bank b).entryApplied i) with apply := { s.apply with inFlight := none } }

theorem applied_bank (s : State) (b : BankId) (i : Nat) : (s.applied b i).bank b = (s.bank b).entryApplied i := by
  cases b <;> rfl

theorem applied_setBank (s : State) (b : BankId) (i : Nat) (k : Bank) :
    (s.applied b i).setBank b k = { s.setBank b k with apply := { s.apply with inFlight := none } } := by cases b <;> rfl

@[simp] theorem applied_anchor (s : State) (b : BankId) (i : Nat) : (s.applied b i).anchor = s.anchor :=
  State.setBank_anchor s b _

variable {e : Entry}

theorem entryApplied_eq {k : Bank} (he : k.entries[i]? = some e) (ha : e.applied = false) :
    k.entryApplied i = { k with
      entries := k.entries.set i { e with applied := true }
      target := if k.target = some i then none else k.target } := by
  rw [Bank.entryApplied, (applyAt_count he ha).1]

/-- R104, R105: the bank is retired exactly where the entry was the last one left unapplied. -/
theorem homeWriteDone_eq (he : (s.bank b).entries[i]? = some e) (ha : e.applied = false) :
    s.homeWriteDone b i =
      if (s.bank b).appliedCount + 1 = (s.bank b).entries.length then (s.applied b i).retire b else s.applied b i := by
  obtain ⟨length, -, count, -⟩ := applyAt_spec he ha
  have counted : ((s.bank b).entryApplied i).appliedCount = (s.bank b).appliedCount + 1 := count
  have kept : ((s.bank b).entryApplied i).entries.length = (s.bank b).entries.length := length
  rw [State.homeWriteDone, counted, kept]
  rfl

/-- R105: the last entry of a bank applied retires its image. -/
theorem applied_retire_eq (he : (s.bank b).entries[i]? = some e) (ha : e.applied = false) {p : ImageSpan} {q : DWord}
    (hi : (s.bank b).image = some p) (hq : (s.bank b).seq = some q) :
    (s.applied b i).retire b = ({ s.setBank b { s.bank b with
        state := .retiring, entries := (s.bank b).entries.set i { e with applied := true }, target := none } with
      apply := ⟨none, none⟩
      anchor := { s.anchor with image := { s.anchor.image with
        tail := (p.start + p.size) % s.anchor.image.logSize, tailSeq := q + 1 } } } : State).requestWrite := by
  rw [retire_eq (by rwa [applied_bank]) (by rwa [applied_bank]), applied_setBank, applied_bank, applied_anchor,
    entryApplied_eq he ha]

end HomeWrite

/-- Settles O30: the write lands, and what the apply engine then does depends on the part state and the entries left. -/
theorem homeWriteLands : Obligations.HomeWriteLands := by
  intro s a l w b i e hm hf ha he unapplied
  rw [exec_homeWriteCompletion hf ha, landed_write]
  refine ⟨_, writeLanes_stored hm a l w, ?_⟩
  generalize writeLanes s.mem a l w = m
  have entry : ((s.portDone m).bank b).entries[i]? = some e := by rwa [portDone_bank]
  have done := homeWriteDone_eq entry unapplied
  rw [portDone_bank] at done
  refine ⟨fun hp left => ?_, fun p q hp last hi hq => ?_, fun hp => ?_⟩
  · rw [if_pos hp, done, if_neg left.ne, State.applied, entryApplied_eq entry unapplied, portDone_bank,
      show (s.portDone m).apply = ⟨some b, some i⟩ from ha]
  · rw [if_pos hp, done, if_pos last,
      applied_retire_eq entry unapplied (by rwa [portDone_bank]) (by rwa [portDone_bank]), portDone_bank]
    exact ⟨fun busy => congrArg _ (requestWrite_pends busy), fun idle => congrArg _ (requestWrite_starts idle)⟩
  · rw [if_neg (by rw [hp]; decide)]

end Sys2Proof.Machine
end

section
/-! The anchor writer's writes (R107, R108, R118 to R124) and the two of a FORMAT (R127 to R130): how each starts, what its words
and its end give; O31, O32, O34 and O35. -/

namespace Sys2Proof.Machine

/-! ## A write starts (R107, R120, R121) -/

/-- R121: the copy other than the last written, and copy A where there is none. -/
theorem AnchorWriter.nextTarget_eq (w : AnchorWriter) : w.nextTarget = if w.lastCopy = some .a then .b else .a := by
  unfold AnchorWriter.nextTarget
  cases w.lastCopy with
  | none => rfl
  | some c => cases c <;> rfl

/-- R120: the pending write starts where the anchor writer works and has none in flight. -/
theorem exec_pendingWriteStart {s : State} (hp : s.start.part.anchorWorks = true) (pending : s.anchor.pending = true)
    (idle : s.anchor.write = none) : exec .pendingWriteStart s = .next s.startWrite :=
  congrArg Host.Outcome.next (if_pos ⟨hp, pending, idle⟩)

/-- Settles O31. -/
theorem anchorWriteStarts : Obligations.AnchorWriteStarts := by
  intro s target carried
  refine ⟨?_, fun hp => exec_pendingWriteStart (anchorWorks_of_part hp)⟩
  rw [State.startWrite, State.nextWrite, AnchorWriter.nextTarget_eq]
  rfl

/-! ## A word of a write completes (R122 to R124) -/

section AnchorWord
variable {s : State} {x : Access} {w : AnchorWrite}

/-- R122, R124: the word in flight lands, and the write goes on in the part states in which the anchor writer works. -/
theorem exec_anchorWordCompletion (hf : s.port.inFlight = some ⟨.anchor, x⟩) (hw : s.anchor.write = some w) :
    exec .anchorWordCompletion s =
      .next (if s.start.part.anchorWorks then (s.landed x).anchorWordDone w else s.landed x) := by
  show Host.Outcome.next s.anchorCompletion = _
  simp only [State.anchorCompletion, flightOf_eq hf, hw]

theorem anchorWordDone_counts (h : w.completed ≠ 63) : s.anchorWordDone w = s.countWord w :=
  if_neg (show w.completed + 1 ≠ 64 by omega)

theorem anchorWordDone_completes (h : w.completed = 63) : s.anchorWordDone w = s.completeWrite w :=
  if_pos (show w.completed + 1 = 64 by omega)

/-! ## The end of a write with nothing waiting for it (R23, R71) -/

/-- R23, R71: no transaction waits in RUN for a bank, and no write awaits the hold condition. -/
theorem openWaiting_examineHold_none (hc : s.start.part ≠ .run ∨ s.txn.context ≠ .slotWait)
    (hs : ∀ h, s.host.slot = some h → h.awaits ≠ .holdCondition) : s.openWaiting.examineHold = s := by
  have stays : s.openWaiting = s := openWaiting_stays fun _ ⟨runs, waits, _⟩ => hc.elim (· runs) (· waits)
  rw [stays, examineHold_unheld (slotAwaiting_none hs)]

end AnchorWord

/-- Settles O32: the word lands, and the part state and the words left say what the write then does. -/
theorem anchorWordLands : Obligations.AnchorWordLands := by
  intro s a w wr hm hf hw
  rw [exec_anchorWordCompletion hf hw, landed_write]
  refine ⟨_, writeLanes_stored hm a _ w, fun hp hn => ?_, fun hp => ?_, fun hp hn hcar hc hs h0 h1 => ?_⟩
  · rw [if_pos (anchorWorks_of_part hp), anchorWordDone_counts hn]
    rfl
  · rw [if_neg (by rw [hp]; decide)]
  · rw [if_pos (anchorWorks_of_part (.inl hp)), anchorWordDone_completes hn,
      completeWrite_run (s := s.portDone _) hp hcar h0 h1]
    exact congrArg Host.Outcome.next (openWaiting_examineHold_none (.inr hc) hs)

/-! ## The writes of a FORMAT (R127 to R130) -/

section Format
variable {s : State} {x : Access} {w : AnchorWrite} {region : LogRegion} {former : Option LogRegion}

/-- R128, R130: the clear write in flight lands, and the FORMAT goes on in FORMATTING alone. -/
theorem exec_formatClearCompletion (hf : s.port.inFlight = some ⟨.anchor, x⟩) (idle : s.anchor.write = none)
    (hj : s.anchor.format = some ⟨region, former, .clearing⟩) :
    exec .formatClearCompletion s =
      .next (if s.start.part = .formatting then (s.landed x).formatCleared ⟨region, former, .clearing⟩ else s.landed x) := by
  show Host.Outcome.next s.clearCompletion = _
  simp only [State.clearCompletion, AnchorWriter.clearing, flightOf_eq hf, hj, idle, and_self, if_true]

/-- R128: the second write starts once it is due and no write is in flight. -/
theorem exec_formatSecondWriteStart (hp : s.start.part = .formatting) (hj : s.anchor.format = some ⟨region, former, .secondDue⟩)
    (idle : s.anchor.write = none) :
    exec .formatSecondWriteStart s =
      .next { s with anchor := { s.anchor with format := some ⟨region, former, .secondWrite⟩ } }.startWrite := by
  show Host.Outcome.next s.secondStart = _
  simp only [State.secondStart, hp, hj, idle, and_self, if_true]

/-- R128: the end of the first write makes the second due. -/
theorem formatWriteDone_first (hj : s.anchor.format = some ⟨region, former, .firstWrite⟩) :
    s.formatWriteDone = { s with anchor := { s.anchor with format := some ⟨region, former, .secondDue⟩ } } := by
  simp only [State.formatWriteDone, hj]

/-- R129: the end of the second write completes the FORMAT. -/
theorem formatWriteDone_second (hj : s.anchor.format = some ⟨region, former, .secondWrite⟩) :
    s.formatWriteDone = s.finishFormat := by
  simp only [State.formatWriteDone, hj]

/-- R123: the end of a write that carries a FORMAT and covers no bank. -/
theorem completeWrite_format (hcar : w.carried = some .format) (h0 : w.covers0 = false) (h1 : w.covers1 = false) :
    s.completeWrite w = (s.writeDone w).formatWriteDone.openWaiting.examineHold.closingDone := by
  have retires_none : (s.writeDone w).retireCovered w = s.writeDone w := by
    simp only [State.retireCovered, h0, h1, Bool.false_eq_true, if_false]
  simp only [State.completeWrite, retires_none, State.carriedDone, hcar]

/-- R123: word 63 of a FORMAT's write, in FORMATTING. -/
theorem exec_anchorWordCompletion_format (hf : s.port.inFlight = some ⟨.anchor, x⟩) (hw : s.anchor.write = some w)
    (hp : s.start.part = .formatting) (hn : w.completed = 63) (hcar : w.carried = some .format) (h0 : w.covers0 = false)
    (h1 : w.covers1 = false) :
    exec .anchorWordCompletion s =
      .next ((s.landed x).writeDone w).formatWriteDone.openWaiting.examineHold.closingDone := by
  rw [exec_anchorWordCompletion hf hw, if_pos (anchorWorks_of_part (.inr (.inl hp))), anchorWordDone_completes hn,
    completeWrite_format hcar h0 h1]

end Format

/-- Settles O34: the clear's completion, the end of the first write, and the start of the second. -/
theorem formatMakesTwoWrites : Obligations.FormatMakesTwoWrites := by
  intro s region former
  refine ⟨fun a w hm hf idle hj => ?_, fun hp => ⟨fun a w wr hm hj hf hw hn hcar h0 h1 hs => ?_, exec_formatSecondWriteStart hp⟩⟩
  · rw [exec_formatClearCompletion hf idle hj, landed_write]
    refine ⟨_, writeLanes_stored hm a _ w, fun hp => ?_, fun hp => ?_⟩
    · rw [if_pos hp]
      rfl
    · rw [if_neg (by rw [hp]; decide)]
  · let u := (s.portDone (writeLanes s.mem a ⟨true, true⟩ w)).writeDone wr
    let t : State := { u with anchor := { u.anchor with format := some ⟨region, former, .secondDue⟩ } }
    have part : t.start.part = .formatting := hp
    have due : u.formatWriteDone = t := formatWriteDone_first (s := u) hj
    have unserved : t.openWaiting.examineHold = t := openWaiting_examineHold_none (.inl (by rw [part]; decide)) hs
    refine ⟨_, writeLanes_stored hm a _ w, ?_⟩
    rw [exec_anchorWordCompletion_format hf hw hp hn hcar h0 h1, landed_write, due, unserved,
      closingDone_eq (by rw [part]; decide)]
    rfl

/-- R23, R53: with no write held the bank found is empty, and that is all the neighbours take. -/
theorem served_openedOn {s : State} {b : BankId} (hb : s.findsBank b) (unheld : ∀ h, s.host.slot = some h → h.awaits ≠ .bank)
    (unexamined : ∀ h, s.host.slot = some h → h.awaits ≠ .holdCondition) :
    s.openWaiting.examineHold = s.openedOn b .capturing := by
  rw [openWaiting_finds hb, openOn_captureNone s b (slotAwaiting_none unheld)]
  exact examineHold_unheld (slotAwaiting_none (by rwa [openedOn_host]))

/-- Settles O35: the FORMAT is finished, and then a transaction that waits finds Bank 0. -/
theorem formatCompletes : Obligations.FormatCompletes := by
  intro s a w wr region former hm hp hj hf hw hn hcar h0 h1 hs hfree
  let m := writeLanes s.mem a ⟨true, true⟩ w
  let u := ((s.portDone m).writeDone wr).finishFormat
  have finished : ((s.portDone m).writeDone wr).formatWriteDone = u := formatWriteDone_second hj
  have run : exec .anchorWordCompletion s = .next u.openWaiting.examineHold.closingDone := by
    rw [exec_anchorWordCompletion_format hf hw hp hn hcar h0 h1, landed_write, finished]
  have ends {t : State} (served : u.openWaiting.examineHold = t) (running : t.start.part = .run) :
      exec .anchorWordCompletion s = .next t := by
    rw [run, served, closingDone_eq (by rw [running]; decide)]
  by_cases hc : s.txn.context = .slotWait
  · have finds : u.findsBank .b0 := ⟨rfl, hc, if_pos hfree⟩
    by_cases hb : ∃ h, s.host.slot = some h ∧ h.awaits = .bank
    · obtain ⟨h, slot, awaits⟩ := hb
      refine ⟨m, _, writeLanes_stored hm a _ w, ends (served_captures finds slot awaits) rfl, rfl, absurd hc, fun _ => rfl, ?_,
        fun _ => ⟨fun unheld => absurd awaits (unheld h slot), fun x hx _ => ?_⟩⟩
      · rintro (hn | unheld)
        · exact absurd hc hn
        · exact absurd awaits (unheld h slot)
      · cases slot.symm.trans hx
        exact ⟨rfl, rfl, rfl⟩
    · have unheld : ∀ h, s.host.slot = some h → h.awaits ≠ .bank := fun h slot awaits => hb ⟨h, slot, awaits⟩
      exact ⟨m, _, writeLanes_stored hm a _ w, ends (served_openedOn finds unheld hs) rfl, rfl, absurd hc, fun _ => rfl,
        fun _ => ⟨rfl, rfl⟩, fun _ => ⟨fun _ => rfl, fun h slot awaits => absurd awaits (unheld h slot)⟩⟩
  · exact ⟨m, u, writeLanes_stored hm a _ w, ends (openWaiting_examineHold_none (.inr hc) hs) rfl, rfl, fun _ => ⟨rfl, rfl⟩,
      fun h => absurd h hc, fun _ => ⟨rfl, rfl⟩, fun h => absurd h hc⟩

end Sys2Proof.Machine
end

section
/-! The takes of APPLY_GUARDS (R125) and of FORMAT (R126, R127): their checks, what acceptance gives, O51 and O52. -/

namespace Sys2Proof.Machine

/-! ## APPLY_GUARDS (R120, R125) -/

/-- R125: the edit table fits where no enabled entry reaches the memory size. -/
theorem guardsFit_iff (size : Nat) (t : GuardTable) :
    guardsFit size t = true ↔ ¬∃ i : Fin 8, (t[i]).first ≤ (t[i]).last ∧ size ≤ (t[i]).last.toNat := by
  have entries : guardsFit size t = true ↔ ∀ i (hi : i < 8), t[i].last < t[i].first ∨ t[i].last.toNat < size := by
    simp [guardsFit]
  rw [entries, not_exists]
  constructor
  · rintro fits i ⟨enabled, reaches⟩
    rcases fits i i.isLt with disabled | below
    · exact absurd enabled (BitVec.not_le.mpr disabled)
    · exact absurd reaches (Nat.not_le.mpr below)
  · intro none_reaches i hi
    by_contra outside
    rw [not_or, BitVec.not_lt, Nat.not_lt] at outside
    exact none_reaches ⟨i, hi⟩ outside

/-- R171: the take of APPLY_GUARDS where the controllers work. -/
theorem exec_applyGuards {s : State} (hd : s.mgmt.command.due = some 0x02) (hw : s.controllerWorks) :
    exec .applyGuards s = .next s.taken.guardsTaken :=
  congrArg Host.Outcome.next (takeDue_taken hd hw (named := (· == 0x02)) rfl fun _ t => t.guardsTaken)

/-- R125: in RUN the table is checked. -/
theorem exec_applyGuards_run {s : State} (hd : s.mgmt.command.due = some 0x02) (hp : s.start.part = .run) :
    exec .applyGuards s =
      .next (if guardsFit s.memSize s.mgmt.edit then s.taken.guardsAccepted
        else s.taken.withStatus .refused 0x02 (some .badParameter)) := by
  rw [exec_applyGuards hd (.inr (.inl hp))]
  exact congrArg Host.Outcome.next (if_neg (not_not.mpr hp))

/-- Settles O51: refused outside RUN, refused for an entry that reaches the memory size, or accepted with a request. -/
theorem applyGuardsRequestsAnAnchorWrite : Obligations.ApplyGuardsRequestsAnAnchorWrite := by
  intro s hd reaches t
  refine ⟨fun hp => ?_, fun hp beyond => ?_, fun hp within => ?_⟩
  · have not_run : s.start.part ≠ .run := by rcases hp with hp | hp <;> rw [hp] <;> decide
    rw [exec_applyGuards hd (hp.imp_right .inr)]
    exact congrArg Host.Outcome.next (if_pos not_run)
  · rw [exec_applyGuards_run hd hp, if_neg fun fits => (guardsFit_iff _ _).mp fits beyond]
  · have take : exec .applyGuards s = .next t.requestWrite := by
      rw [exec_applyGuards_run hd hp, if_pos ((guardsFit_iff _ _).mpr within)]
      rfl
    rw [take]
    exact ⟨fun idle => congrArg _ (requestWrite_starts idle), fun busy => congrArg _ (requestWrite_pends busy)⟩

/-! ## FORMAT (R126, R127) -/

/-- R116, R126: the bounds of a log region. -/
theorem regionFits_iff (size : Nat) (r : LogRegion) :
    regionFits size r = true ↔ 128 ≤ r.base ∧ 1024 ≤ r.size ∧ r.size ≤ 262144 ∧ r.base + r.size ≤ size := by
  simp only [regionFits, Bool.and_eq_true, decide_eq_true_eq, and_assoc]
  rfl

/-- R126: the checks of a FORMAT that come before those of its region. -/
theorem formatBusy_iff {s : State} (hw : s.controllerWorks) :
    s.formatBusy = true ↔ ¬(s.start.part ≠ .formatting ∧ s.txn.context = .idle ∧ s.bank0.state = .free ∧
      s.bank1.state = .free ∧ s.anchor.write = none ∧ s.anchor.pending = false) := by
  have part : (s.start.part ≠ .run ∧ s.start.part ≠ .unformatted) ↔ s.start.part = .formatting := by
    rcases hw with hp | hp | hp <;> simp [hp]
  simp only [State.formatBusy, part, Bool.or_eq_true, decide_eq_true_eq, Option.isSome_iff_ne_none]
  cases s.anchor.pending <;> simp
  tauto

/-- R171: the take of FORMAT where the controllers work. -/
theorem exec_format {s : State} (hd : s.mgmt.command.due = some 0x04) (hw : s.controllerWorks) :
    exec .format s = .next s.taken.formatTaken :=
  congrArg Host.Outcome.next (takeDue_taken hd hw (named := (· == 0x04)) rfl fun _ t => t.formatTaken)

/-- Settles O52: BUSY_STATE, then BAD_PARAMETER, then the acceptance. -/
theorem formatIsCheckedAndAccepted : Obligations.FormatIsCheckedAndAccepted := by
  intro s hd hw base size fits ready former t
  have busy : s.taken.formatBusy = true ↔ ¬ready := formatBusy_iff (s := s.taken) hw
  have region : regionFits s.taken.memSize s.taken.formatRegion = true ↔ fits := regionFits_iff _ _
  rw [exec_format hd hw, State.formatTaken]
  refine ⟨fun unready => ?_, fun hr short => ?_, fun hr hfit => ?_⟩
  · rw [if_pos (busy.mpr unready)]
    rfl
  · rw [if_neg (fun h => busy.mp h hr), if_neg (fun h => short (region.mp h))]
    rfl
  · rw [if_neg (fun h => busy.mp h hr), if_pos (region.mpr hfit)]
    rfl

end Sys2Proof.Machine
end

section
/-! The copies of the anchor (R114 to R117, R121, R147): the words a write lays out, what a load uses of them, which copies are
valid, and O59. -/

namespace Sys2Proof.Machine

/-! ## Which copies are valid (R116) -/

/-- R116: tests 3 to 6, of the log fields a copy loads. -/
theorem copyFieldsFit_iff (size : Nat) (copy : List Word) :
    (regionFits size ⟨(copyImage copy).logBase, (copyImage copy).logSize⟩ &&
        decide ((copyImage copy).tail < (copyImage copy).logSize)) = true ↔
      128 ≤ (copyField copy 4).toNat ∧ 1024 ≤ (copyField copy 6).toNat ∧ (copyField copy 6).toNat ≤ 262144 ∧
        (copyField copy 4).toNat + (copyField copy 6).toNat ≤ size ∧
        (copyField copy 8).toNat < (copyField copy 6).toNat := by
  rw [Bool.and_eq_true, regionFits_iff, decide_eq_true_eq]
  simp only [and_assoc]
  rfl

section Failure
variable {size : Nat} {copy : List Word}

theorem copyFailure_signature (h : ¬(copy.getD 0 0 = 0x5356 ∧ copy.getD 1 0 = 0x4A42)) :
    copyFailure size copy = some .signature := if_pos (not_and_or.mp h)

/-- R116: the tests a copy with the right signature is put to. -/
theorem copyFailure_signed (h : copy.getD 0 0 = 0x5356 ∧ copy.getD 1 0 = 0x4A42) :
    copyFailure size copy =
      if copy.getD 63 0 ≠ crcWords (copy.take 63) then some .crc
      else if regionFits size ⟨(copyImage copy).logBase, (copyImage copy).logSize⟩ &&
        decide ((copyImage copy).tail < (copyImage copy).logSize) then none
      else some .logFields :=
  if_neg (by rw [h.1, h.2]; simp)

end Failure

/-! ## The bits of a guard entry a load uses (R114, R115) -/

theorem policyOf_eq (w : Word) :
    policyOf w = if w.extractLsb' 14 2 = 0#2 then .plain else if w.extractLsb' 14 2 = 1#2 then .journaled else .locked := by
  have bits : w.extractLsb' 14 2 = BitVec.ofBool (w.getLsbD 15) ++ BitVec.ofBool (w.getLsbD 14) := by
    refine BitVec.eq_of_getLsbD_eq fun i hi => ?_
    simp only [BitVec.getLsbD_extractLsb', BitVec.getLsbD_append, BitVec.getLsbD_ofBool]
    interval_cases i <;> simp
  rw [policyOf, bits]
  cases w.getLsbD 15 <;> cases w.getLsbD 14 <;> rfl

theorem copyGuards_getElem (copy : List Word) (e : Fin 8) : (copyGuards copy)[e] = copyGuard copy e.val := by
  simp [copyGuards]

/-- R114: word k of guard entry e of a copy. -/
def guardWord (copy : List Word) (e k : Nat) : Word := copy.getD (12 + 4 * e + k) 0

theorem guardWord_eq (copy : List Word) (e k : Nat) : guardWord copy e k = copy.getD (12 + k + 4 * e) 0 :=
  congrArg (copy.getD · 0) (Nat.add_right_comm 12 (4 * e) k)

theorem copyGuard_eq (copy : List Word) (e : Nat) :
    copyGuard copy e =
      { first := joinAddr (guardWord copy e 0) (guardWord copy e 1)
        last := joinAddr (guardWord copy e 2) (guardWord copy e 3)
        policy := policyOf (guardWord copy e 2)
        action := if (guardWord copy e 2).getLsbD 13 then .dropAndReset else .drop } := by
  simp only [guardWord_eq]
  rfl

/-! ## The words of a guard entry (R114, R115) -/

/-- R114, R115: the third word of a guard entry, of its policy, its action and bits 19:16 of its end: every bit not named 0. -/
def guardHead (p : Policy) (a : RefusalAction) (high : BitVec 4) : Word :=
  (match p with | .plain => 0#2 | .journaled => 1#2 | .locked => 2#2) ++
    (match a with | .drop => 0#1 | .dropAndReset => 1#1) ++ 0#9 ++ high

section GuardHead
variable (p : Policy) (a : RefusalAction) (high : BitVec 4)

theorem codes_or_high :
    BitVec.ofNat 16 (0x4000 * policyCode p + 0x2000 * actionCode a) ||| high.setWidth 16 = guardHead p a high := by
  revert high
  cases p <;> cases a <;> decide

theorem policyOf_guardHead : policyOf (guardHead p a high) = p := by
  revert high
  cases p <;> cases a <;> decide

theorem action_guardHead : (if (guardHead p a high).getLsbD 13 then RefusalAction.dropAndReset else .drop) = a := by
  revert high
  cases p <;> cases a <;> decide

theorem guardHead_low : (guardHead p a high).extractLsb' 0 4 = high := extract_append_low _ high

end GuardHead

theorem addrHigh_eq_append (a : Addr) : addrHigh a = 0#12 ++ a.extractLsb' 16 4 := by
  rw [addrHigh_eq]
  generalize a.extractLsb' 16 4 = high
  revert high
  decide

theorem guardWords_eq (g : GuardEntry) :
    guardWords g = [0#12 ++ g.first.extractLsb' 16 4, g.first.extractLsb' 0 16,
      guardHead g.policy g.action (g.last.extractLsb' 16 4), g.last.extractLsb' 0 16] := by
  rw [guardWords, addrHigh_eq_append g.first, addrHigh_eq g.last, codes_or_high]
  rfl

/-- R114: two words whose bits 3:0 and 15:0 are those of an address spell it. -/
theorem joinAddr_parts {hi : Word} {a : Addr} (h : hi.extractLsb' 0 4 = a.extractLsb' 16 4) :
    joinAddr hi (a.extractLsb' 0 16) = a := by
  rw [joinAddr, h]
  exact BitVec.extractLsb'_append_extractLsb'

/-! ## The words an anchor write lays out (R114, R121) -/

/-- R114: copy words 0 to 11. -/
def copyHead (image : AnchorImage) (generation : DWord) : List Word :=
  [0x5356, 0x4A42, highHalf generation, lowHalf generation] ++ numberWords image.logBase ++ numberWords image.logSize
    ++ numberWords image.tail ++ [highHalf image.tailSeq, lowHalf image.tailSeq]

/-- R114: copy words 12 to 43. -/
def guardsBody (t : GuardTable) : List Word := t.toList.flatMap guardWords

theorem copySnapshot_eq (image : AnchorImage) (generation : DWord) :
    copySnapshot image generation = copyHead image generation ++ (guardsBody image.guards ++
      (List.replicate 19 0 ++ [crcWords (copyBody image generation)])) := by
  simp only [copySnapshot, copyBody, copyHead, guardsBody, List.append_assoc]

theorem flatMap_guardWords_length (gs : List GuardEntry) : (gs.flatMap guardWords).length = 4 * gs.length := by
  induction gs with
  | nil => rfl
  | cons g gs ih =>
    rw [List.flatMap_cons, List.length_append, ih, List.length_cons]
    simp only [guardWords, List.length_cons, List.length_nil]
    omega

/-- R114: word k of guard entry e. -/
theorem flatMap_guardWords_getD (gs : List GuardEntry) {e k : Nat} (he : e < gs.length) (hk : k < 4) :
    (gs.flatMap guardWords).getD (4 * e + k) 0 = (guardWords gs[e]).getD k 0 := by
  induction gs generalizing e with
  | nil => simp at he
  | cons g gs ih =>
    have four : (guardWords g).length = 4 := rfl
    rw [List.flatMap_cons]
    cases e with
    | zero => rw [Nat.mul_zero, Nat.zero_add, List.getD_append _ _ _ _ (by omega), List.getElem_cons_zero]
    | succ e =>
      rw [List.getD_append_right _ _ _ _ (by omega), show 4 * (e + 1) + k - (guardWords g).length = 4 * e + k by omega,
        ih (by simpa using he), List.getElem_cons_succ]

theorem guardsBody_length (t : GuardTable) : (guardsBody t).length = 32 := by
  rw [guardsBody, flatMap_guardWords_length, Vector.length_toList]

section Snapshot
variable (image : AnchorImage) (generation : DWord)

theorem copyHead_length : (copyHead image generation).length = 12 := rfl

theorem copyBody_length : (copyBody image generation).length = 63 := by
  have body : copyBody image generation = copyHead image generation ++ (guardsBody image.guards ++ List.replicate 19 0) :=
    List.append_assoc ..
  simp only [body, List.length_append, copyHead_length, guardsBody_length, List.length_replicate]

theorem copySnapshot_length : (copySnapshot image generation).length = 64 := by
  rw [copySnapshot, List.length_append, copyBody_length]
  rfl

theorem copySnapshot_take : (copySnapshot image generation).take 63 = copyBody image generation :=
  List.take_left' (copyBody_length image generation)

/-- R121: the last word of a copy is the CRC of the words before it. -/
theorem copySnapshot_crc :
    (copySnapshot image generation).getD 63 0 = crcWords ((copySnapshot image generation).take 63) := by
  rw [copySnapshot_take, copySnapshot, List.getD_append_right _ _ _ _ (copyBody_length image generation).le, copyBody_length,
    Nat.sub_self, List.getD_cons_zero]

/-- R114: the words of guard entry e of a copy are those of the image's guard entry e. -/
theorem guardWord_copySnapshot (e : Fin 8) {k : Nat} (hk : k < 4) :
    guardWord (copySnapshot image generation) e.val k = (guardWords image.guards[e]).getD k 0 := by
  have he := e.isLt
  rw [guardWord, copySnapshot_eq, List.getD_append_right _ _ _ _ (by rw [copyHead_length]; omega), copyHead_length,
    List.getD_append _ _ _ _ (by rw [guardsBody_length]; omega), show 12 + 4 * e.val + k - 12 = 4 * e.val + k by omega]
  exact flatMap_guardWords_getD _ (by simp) hk

/-- R114: the words a copy does not use are 0. -/
theorem copySnapshot_unused {n : Nat} (h1 : 44 ≤ n) (h2 : n ≤ 62) : (copySnapshot image generation).getD n 0 = 0 := by
  rw [copySnapshot_eq, List.getD_append_right _ _ _ _ (by rw [copyHead_length]; omega), copyHead_length,
    List.getD_append_right _ _ _ _ (by rw [guardsBody_length]; omega), guardsBody_length,
    List.getD_append _ _ _ _ (by rw [List.length_replicate]; omega), List.getD_replicate _ (by omega)]

/-! ## A copy loaded back (R115, R148) -/

theorem joinHalves_halves (d : DWord) : joinHalves (highHalf d) (lowHalf d) = d := append_extract (n := 16) (m := 16) d

theorem copyGeneration_copySnapshot : copyGeneration (copySnapshot image generation) = generation := joinHalves_halves generation

/-- R114, R115: a guard entry written is loaded as it was. -/
theorem copyGuard_copySnapshot (e : Fin 8) : copyGuard (copySnapshot image generation) e.val = image.guards[e] := by
  have word {k : Nat} (hk : k < 4) := guardWord_copySnapshot image generation e hk
  rw [copyGuard_eq, word (by decide), word (by decide), word (by decide), word (by decide)]
  generalize image.guards[e] = g
  rw [guardWords_eq]
  simp only [List.getD_cons_zero, List.getD_cons_succ, policyOf_guardHead, action_guardHead,
    joinAddr_parts (guardHead_low _ _ _), joinAddr_parts (extract_append_low _ _)]

theorem copyGuards_copySnapshot : copyGuards (copySnapshot image generation) = image.guards := by
  refine Vector.ext fun i hi => ?_
  have loaded := copyGuards_getElem (copySnapshot image generation) ⟨i, hi⟩
  rw [copyGuard_copySnapshot] at loaded
  exact loaded

/-- R114: a number below 2^32 written in two words is loaded as it was. -/
theorem joinHalves_number {n : Nat} (h : n < 4294967296) :
    (joinHalves (highHalf (BitVec.ofNat 32 n)) (lowHalf (BitVec.ofNat 32 n))).toNat = n := by
  rw [joinHalves_halves, BitVec.toNat_ofNat]
  exact Nat.mod_eq_of_lt h

/-- R114, R115, R121: an image whose numbers are below 2^32 is loaded as it was written. -/
theorem copyImage_copySnapshot (hb : image.logBase < 4294967296) (hs : image.logSize < 4294967296)
    (ht : image.tail < 4294967296) : copyImage (copySnapshot image generation) = image := by
  have base : (copyField (copySnapshot image generation) 4).toNat = image.logBase := joinHalves_number hb
  have size : (copyField (copySnapshot image generation) 6).toNat = image.logSize := joinHalves_number hs
  have tail : (copyField (copySnapshot image generation) 8).toNat = image.tail := joinHalves_number ht
  have tailSeq : copyField (copySnapshot image generation) 10 = image.tailSeq := joinHalves_halves image.tailSeq
  rw [copyImage, base, size, tail, tailSeq, copyGuards_copySnapshot]

end Snapshot

/-- Settles O59: the tests of a copy, the bits a load uses, the words a write lays out, and the load of what was written. -/
theorem anchorCopyLoadsBack : Obligations.AnchorCopyLoadsBack := by
  refine ⟨?_, ?_, ?_, ?_⟩
  · intro size copy signature crc fields
    refine ⟨fun hs hc hf => ?_, copyFailure_signature, fun hs hc => ?_, fun hs hc hf => ?_⟩
    · rw [copyFailure_signed hs, if_neg (not_not.mpr hc), if_pos ((copyFieldsFit_iff size copy).mpr hf)]
    · rw [copyFailure_signed hs, if_pos hc]
    · rw [copyFailure_signed hs, if_neg (not_not.mpr hc), if_neg fun fits => hf ((copyFieldsFit_iff size copy).mp fits)]
  · intro copy e word code
    refine ⟨rfl, rfl, rfl, rfl, rfl, (copyGuards_getElem copy e).trans ?_⟩
    rw [copyGuard_eq, policyOf_eq]
    rfl
  · intro image generation e copy word halves g
    have words {k : Nat} (hk : k < 4) : copy.getD (12 + k + 4 * e.val) 0 = (guardWords g).getD k 0 :=
      (guardWord_eq copy e k).symm.trans (guardWord_copySnapshot image generation e hk)
    rw [guardWords_eq] at words
    exact ⟨copySnapshot_length image generation, rfl, rfl, ⟨rfl, rfl⟩, ⟨rfl, rfl⟩, ⟨rfl, rfl⟩, ⟨rfl, rfl⟩, ⟨rfl, rfl⟩,
      words (k := 0) (by decide), words (k := 1) (by decide), words (k := 2) (by decide), words (k := 3) (by decide),
      fun n => copySnapshot_unused image generation, copySnapshot_crc image generation⟩
  · intro size image generation hm hb h1 h2 hfit ht copy
    have loaded : copyImage copy = image := copyImage_copySnapshot image generation (by omega) (by omega) (by omega)
    refine ⟨?_, loaded, copyGeneration_copySnapshot image generation⟩
    rw [copyFailure_signed ⟨rfl, rfl⟩, if_neg (not_not.mpr (copySnapshot_crc image generation)), loaded, if_pos]
    rw [Bool.and_eq_true, regionFits_iff, decide_eq_true_eq]
    exact ⟨⟨hb, h1, h2, hfit⟩, ht⟩

end Sys2Proof.Machine
end

section
/-! The arbiter's grants (R136 to R140): the claimant a grant goes to, what is granted and what is not, and O25. -/

namespace Sys2Proof.Machine

section Grant
variable {s : State}

/-- R137: an engine has a claim waiting. -/
theorem engine_isSome_iff (c : Claims) : c.engine.isSome = true ↔ c.anchor ≠ none ∨ c.log ≠ none ∨ c.apply ≠ none := by
  unfold Claims.engine
  cases c.anchor <;> cases c.log <;> cases c.apply <;> simp

/-- R137, R139: where neither the start-up controller nor the host port comes first, the grant goes to the engine of highest rank. -/
theorem grantee_engine (no_startup : s.port.waiting.startup = none)
    (not_host : ¬(s.port.waiting.host ≠ none ∧ s.port.burst < s.mgmt.config.burstLimit))
    (engine : s.port.waiting.engine.isSome = true) : s.grantee = s.port.waiting.engine := by
  have not_first : (s.port.waiting.host.isSome &&
      (s.port.waiting.engine.isNone || decide (s.port.burst < s.mgmt.config.burstLimit))) = false := by
    simpa [Option.isSome_iff_ne_none, Option.isSome_iff_ne_none.mp engine] using not_host
  simp only [State.grantee, no_startup, not_first, Option.isSome_none, Bool.false_eq_true, if_false]

/-- R137, R139: the arbiter chooses the claimant whose claim wins. -/
theorem grantee_of_wins {who : Claimant} (h : s.wins who) : s.grantee = some who := by
  cases who with
  | startup => exact if_pos (Option.isSome_iff_ne_none.mpr h)
  | host =>
    obtain ⟨no_startup, host, first⟩ := h
    have no_engine : s.port.waiting.engine = none ↔
        s.port.waiting.anchor = none ∧ s.port.waiting.log = none ∧ s.port.waiting.apply = none := by
      have := (engine_isSome_iff s.port.waiting).not
      simpa using this
    simp only [State.grantee, no_startup, Option.isSome_none, Bool.false_eq_true, if_false]
    exact if_pos (by simpa [Option.isSome_iff_ne_none, host, no_engine, or_comm] using first)
  | anchor =>
    obtain ⟨no_startup, anchor, not_host⟩ := h
    rw [grantee_engine no_startup not_host ((engine_isSome_iff _).mpr (.inl anchor))]
    exact if_pos (Option.isSome_iff_ne_none.mpr anchor)
  | log =>
    obtain ⟨no_startup, no_anchor, log, not_host⟩ := h
    rw [grantee_engine no_startup not_host ((engine_isSome_iff _).mpr (.inr (.inl log)))]
    simp [Claims.engine, no_anchor, Option.isSome_iff_ne_none, log]
  | apply =>
    obtain ⟨no_startup, no_anchor, no_log, apply, not_host⟩ := h
    rw [grantee_engine no_startup not_host ((engine_isSome_iff _).mpr (.inr (.inr apply)))]
    simp [Claims.engine, no_anchor, no_log, Option.isSome_iff_ne_none, apply]

/-- R136, R140: what a grant needs: the port IDLE, no halt, and the chosen claimant's claim. -/
theorem grantable_eq_some_iff {f : InFlight} :
    s.grantable = some f ↔ s.port.inFlight = none ∧ s.port.halt = false ∧ s.grantee = some f.who ∧
      s.port.waiting.get f.who = some f.access := by
  unfold State.grantable
  cases s.port.inFlight with
  | some g => simp
  | none =>
    cases s.port.halt with
    | true => simp
    | false =>
      cases s.grantee with
      | none => simp
      | some who =>
        simp only [Option.isSome_none, Bool.or_self, Bool.false_eq_true, if_false, Option.map_eq_some_iff, true_and,
          Option.some.injEq]
        constructor
        · rintro ⟨x, waits, rfl⟩
          exact ⟨rfl, waits⟩
        · rintro ⟨rfl, waits⟩
          exact ⟨f.access, waits, rfl⟩

theorem execGrant_granted {f : InFlight} (h : s.grantable = some f) (hm : f.access.addr.toNat < s.memSize) :
    execGrant s = .next (s.granted f.who f.access) := by
  simp only [execGrant, h, hm, if_true]

theorem execGrant_absent {f : InFlight} (h : s.grantable = some f) (hm : s.memSize ≤ f.access.addr.toNat) :
    execGrant s = .fault .absentWord := by
  simp only [execGrant, h, Nat.not_lt.mpr hm, if_false]

theorem execGrant_none (h : s.grantable = none) : execGrant s = .next s := by
  simp only [execGrant, h]

end Grant

/-- Settles O25: the grant of the winner's claim, and no grant where the port is busy, halted or unclaimed. -/
theorem grantGoesToTheWinner : Obligations.GrantGoesToTheWinner := by
  intro s
  refine ⟨?_, fun none_granted => ?_⟩
  · intro who x idle running wins waits engine
    have granted : s.grantable = some ⟨who, x⟩ := grantable_eq_some_iff.mpr ⟨idle, running, grantee_of_wins wins, waits⟩
    have engines : s.port.waiting.engine.isSome = true ↔ engine := engine_isSome_iff _
    refine ⟨fun present => ⟨s.burstAfter who, fun host e => ?_, fun _ e => ?_, fun other => ?_,
      execGrant_granted granted present⟩, execGrant_absent granted⟩
    · exact if_pos ⟨host, engines.mpr e⟩
    · exact if_neg fun h => e (engines.mp h.2)
    · exact if_neg fun h => other h.1
  · refine execGrant_none (Option.eq_none_iff_forall_ne_some.mpr fun f h => ?_)
    obtain ⟨idle, running, _, waits⟩ := grantable_eq_some_iff.mp h
    rcases none_granted with busy | halted | unclaimed
    · exact busy idle
    · rw [running] at halted
      cases halted
    · rw [unclaimed] at waits
      cases waits

end Sys2Proof.Machine
end

section
/-! The claims at the memory port (R2, R9, R11, R71, R122, R127, R135): one claim at most per claimant, the host port's and the
anchor writer's where they have work for it, operation by operation, and O57. -/

namespace Sys2Proof.Machine

/-! ## What the invariant reads -/

/-- The parts of the state `State.claimsSound` speaks of. -/
structure ClaimView where
  waiting  : Claims
  inFlight : Option InFlight
  access   : Option HostAccess
  slot     : Option HeldWrite
  write    : Option AnchorWrite
  format   : Option FormatJob

def State.claimView (s : State) : ClaimView where
  waiting  := s.port.waiting
  inFlight := s.port.inFlight
  access   := s.host.access
  slot     := s.host.slot
  write    := s.anchor.write
  format   := s.anchor.format

theorem claims_of_view {s t : State} (e : t.claimView = s.claimView) (who : Claimant) : t.claims who ↔ s.claims who := by
  have waiting : t.port.waiting = s.port.waiting := congrArg ClaimView.waiting e
  have inFlight : t.port.inFlight = s.port.inFlight := congrArg ClaimView.inFlight e
  simp only [State.claims, waiting, inFlight]

theorem claimsSound_of_view {s t : State} (h : s.claimsSound) (e : t.claimView = s.claimView) : t.claimsSound := by
  have waiting : t.port.waiting = s.port.waiting := congrArg ClaimView.waiting e
  have inFlight : t.port.inFlight = s.port.inFlight := congrArg ClaimView.inFlight e
  have access : t.host.access = s.host.access := congrArg ClaimView.access e
  have slot : t.host.slot = s.host.slot := congrArg ClaimView.slot e
  have write : t.anchor.write = s.anchor.write := congrArg ClaimView.write e
  have format : t.anchor.format = s.anchor.format := congrArg ClaimView.format e
  simpa only [State.claimsSound, claims_of_view e, waiting, inFlight, access, slot, write, format] using h

/-- R71: a held write awaits the memory port. -/
def HostPort.awaitsPort (p : HostPort) : Prop := ∃ x, p.slot = some x ∧ x.awaits = .port

/-- R122, R127: the anchor writer has a write in flight, or a FORMAT's clear to make. -/
def AnchorWriter.hasWork (a : AnchorWriter) : Prop := a.write ≠ none ∨ ∃ j, a.format = some j ∧ j.phase = .clearing

/-- R2: no access is in progress at the host port. -/
def State.hostIdle (s : State) : Prop := s.host.access = none ∧ s.host.slot = none

/-! ## Claims made, granted and completed (R135, R136) -/

section Rules
variable {s : State} {who : Claimant} {x : Access}

theorem Claims.get_set (c : Claims) (who w : Claimant) (x : Option Access) :
    (c.set who x).get w = if w = who then x else c.get w := by
  cases who <;> cases w <;> rfl

/-- R135: a claim made is its claimant's alone. -/
theorem claims_claim (s : State) (who : Claimant) (x : Access) (w : Claimant) :
    (s.claim who x).claims w ↔ w = who ∨ s.claims w := by
  unfold State.claims State.claim
  rw [Claims.get_set]
  by_cases hw : w = who <;> simp [hw]

/-- R2: an idle host port has no claim. -/
theorem not_claims_host (h : s.claimsSound) (idle : s.hostIdle) : ¬s.claims .host := by
  obtain ⟨_, host, _, _⟩ := h
  obtain ⟨no_access, no_slot⟩ := idle
  rw [host, no_access, no_slot]
  simp

/-- R135: a claimant without a claim makes one; no other claim changes. -/
theorem claim_apart (h : s.claimsSound) (free : ¬s.claims who) (w : Claimant) (f : InFlight)
    (waits : (s.claim who x).port.waiting.get w ≠ none) (flies : s.port.inFlight = some f) : f.who ≠ w := by
  obtain ⟨apart, _, _, _⟩ := h
  by_cases hw : w = who
  · exact fun e => free (.inr ⟨f, flies, e.trans hw⟩)
  · refine apart w f ?_ flies
    simpa only [State.claim, Claims.get_set, if_neg hw] using waits

/-- R122, R135: an engine's claim, or the start-up controller's. -/
theorem claim_claimsSound (h : s.claimsSound) (free : ¬s.claims who) (not_host : who ≠ .host)
    (work : who = .anchor → s.anchor.hasWork) (x : Access) : (s.claim who x).claimsSound := by
  obtain ⟨_, host, alone, anchor⟩ := id h
  refine ⟨claim_apart h free, ?_, alone, fun c => ?_⟩
  · rw [claims_claim, or_iff_right not_host.symm]
    exact host
  · rcases (claims_claim s who x .anchor).mp c with e | c
    · exact work e.symm
    · exact anchor c

/-- R9, R68, R71: the host port claims as its access begins, or its hold ends. -/
theorem hostClaim_claimsSound (h : s.claimsSound) (free : ¬s.claims .host) {p : HostPort}
    (work : p.access ≠ none ∨ p.awaitsPort) (alone : p.access = none ∨ p.slot = none) (x : Access) :
    (({ s with host := p } : State).claim .host x).claimsSound := by
  obtain ⟨_, _, _, anchor⟩ := id h
  refine ⟨claim_apart (s := s) h free, ⟨fun _ => work, fun _ => ?_⟩, alone, fun c => ?_⟩
  · exact (claims_claim _ .host x .host).mpr (.inl rfl)
  · rcases (claims_claim _ .host x .anchor).mp c with e | c
    · cases e
    · exact anchor c

/-- R136: a granted claim stays its claimant's, and no other claim changes. -/
theorem claims_granted (idle : s.port.inFlight = none) (waits : s.port.waiting.get who = some x) (w : Claimant) :
    (s.granted who x).claims w ↔ s.claims w := by
  simp only [State.claims, State.granted, Claims.get_set, idle]
  by_cases hw : w = who
  · simp [hw, waits]
  · simp [hw, Ne.symm hw]

theorem granted_claimsSound (h : s.claimsSound) (idle : s.port.inFlight = none) (waits : s.port.waiting.get who = some x) :
    (s.granted who x).claimsSound := by
  obtain ⟨_, host, alone, anchor⟩ := h
  refine ⟨fun w f hw flies e => hw ?_, ?_, alone, fun c => anchor ((claims_granted idle waits .anchor).mp c)⟩
  · obtain rfl : ⟨who, x⟩ = f := Option.some.inj flies
    show (s.port.waiting.set who none).get w = none
    rw [Claims.get_set, if_pos e.symm]
  · rw [claims_granted idle waits]
    exact host

theorem flightOf_eq_some (h : s.flightOf who = some x) : s.port.inFlight = some ⟨who, x⟩ := by
  unfold State.flightOf at h
  split at h
  · rename_i f hf
    split at h
    · rename_i hw
      cases h
      rw [hf, ← hw]
    · cases h
  · cases h

/-- R132, R135: the claimant whose access ends has no claim, and no other claim changes. -/
theorem claims_landed (h : s.claimsSound) (flies : s.flightOf who = some x) (w : Claimant) :
    (s.landed x).claims w ↔ w ≠ who ∧ s.claims w := by
  have inFlight := flightOf_eq_some flies
  obtain ⟨apart, _, _, _⟩ := h
  simp only [State.claims, State.landed, inFlight]
  by_cases hw : w = who
  · subst hw
    have waits_not : s.port.waiting.get w = none := by
      by_contra waits
      exact apart w _ waits inFlight rfl
    simp [waits_not]
  · simp [hw, Ne.symm hw]

theorem landed_apart (s : State) (x : Access) (w : Claimant) (f : InFlight) (_ : (s.landed x).port.waiting.get w ≠ none)
    (flies : (s.landed x).port.inFlight = some f) : f.who ≠ w := by
  cases flies

/-- R132: the end of an access that is not the host port's. -/
theorem landed_claimsSound (h : s.claimsSound) (flies : s.flightOf who = some x) (not_host : who ≠ .host) :
    (s.landed x).claimsSound := by
  have claims_left := claims_landed h flies
  obtain ⟨_, host, alone, anchor⟩ := h
  refine ⟨landed_apart s x, ?_, alone, fun c => anchor ((claims_left .anchor).mp c).2⟩
  rw [claims_left, and_iff_right not_host.symm]
  exact host

/-- R9, R68, R71, R132: the end of the host port's access, which then has none in progress. -/
theorem landedHost_claimsSound (h : s.claimsSound) (flies : s.flightOf .host = some x) {p : HostPort}
    (access : p.access = none) (slot : ¬p.awaitsPort) : ({ s.landed x with host := p } : State).claimsSound := by
  have claims_left := claims_landed h flies
  obtain ⟨_, _, _, anchor⟩ := h
  refine ⟨landed_apart s x, ⟨fun c => ?_, fun work => ?_⟩, .inl access, fun c => anchor ((claims_left .anchor).mp c).2⟩
  · exact absurd rfl ((claims_left .host).mp c).1
  · rcases work with busy | awaits
    · exact absurd access busy
    · exact absurd awaits slot

/-- R11: the held-write slot of a host port changes, and what awaits the memory port does not. -/
theorem setHost_claimsSound (h : s.claimsSound) {p : HostPort} (access : p.access = s.host.access)
    (awaits : p.awaitsPort ↔ s.host.awaitsPort) (alone : p.access = none ∨ p.slot = none) :
    ({ s with host := p } : State).claimsSound := by
  obtain ⟨apart, host, _, anchor⟩ := h
  refine ⟨apart, host.trans ?_, alone, anchor⟩
  show s.host.access ≠ none ∨ s.host.awaitsPort ↔ p.access ≠ none ∨ p.awaitsPort
  rw [access, awaits]

/-- R122, R127: the anchor writer changes, and has work where it has a claim. -/
theorem setAnchor_claimsSound (h : s.claimsSound) {a : AnchorWriter} (work : s.claims .anchor → a.hasWork) :
    ({ s with anchor := a } : State).claimsSound := by
  obtain ⟨apart, host, alone, _⟩ := h
  exact ⟨apart, host, alone, work⟩

/-- R120, R121: an anchor write starts. -/
theorem startWrite_claimsSound (h : s.claimsSound) : s.startWrite.claimsSound :=
  setAnchor_claimsSound h fun _ => .inl (Option.some_ne_none _)

theorem requestWrite_claimsSound (h : s.claimsSound) : s.requestWrite.claimsSound := by
  unfold State.requestWrite
  split
  · exact startWrite_claimsSound h
  · exact h

end Rules

/-! ## Operations the invariant does not see -/

@[simp] theorem setBank_claimView (s : State) (b : BankId) (k : Bank) : (s.setBank b k).claimView = s.claimView := by
  cases b <;> rfl

theorem promoteIn_claimView (s : State) (b : BankId) (a : Addr) : (s.promoteIn b a).claimView = s.claimView := by
  obtain ⟨k, _, e⟩ := promoteIn_spec s b a
  rw [e, setBank_claimView]

theorem openedOn_claimView (s : State) (b : BankId) (k : Bank) : (s.openedOn b k).claimView = s.claimView :=
  setBank_claimView s b k

theorem advance_claimView (s : State) (n : Nat) : (s.advance n).claimView = s.claimView := by
  unfold State.advance
  split <;> rfl

theorem pulseEnd_claimView (s : State) : s.pulseEnd.claimView = s.claimView := by
  unfold State.pulseEnd
  split
  · split
    · rfl
    · exact advance_claimView s _
  · rfl

theorem riseContext_claimView (s : State) : s.riseContext.claimView = s.claimView := by
  unfold State.riseContext
  split
  · split
    · exact openedOn_claimView s _ .capturing
    · rfl
  all_goals rfl

theorem releaseOpen_claimView (s : State) (b : BankId) : (s.releaseOpen b).claimView = s.claimView := by
  unfold State.releaseOpen
  dsimp only
  split_ifs <;> exact setBank_claimView s b _

theorem logTake_claimView (s : State) : s.logTake.claimView = s.claimView := by
  unfold State.logTake
  split
  · split
    · split
      · exact setBank_claimView s _ _
      · rfl
    · rfl
  · rfl

theorem imageWordDone_claimView (s : State) (j : LogJob) : (s.imageWordDone j).claimView = s.claimView := by
  unfold State.imageWordDone
  split
  · exact setBank_claimView s _ _
  · rfl

theorem promoteHeld_claimView (s : State) (b : BankId) : (s.promoteHeld b).claimView = s.claimView := by
  unfold State.promoteHeld
  split
  · exact promoteIn_claimView s _ _
  · rfl

theorem applyTake_claimView (s : State) : s.applyTake.claimView = s.claimView := by
  unfold State.applyTake
  split
  · split
    · split
      · exact (promoteHeld_claimView _ _).trans (setBank_claimView s _ _)
      · rfl
    · rfl
  · rfl

theorem retireBank_claimView (s : State) (b : BankId) : (s.retireBank b).claimView = s.claimView := by
  unfold State.retireBank
  split
  · exact setBank_claimView s b _
  · rfl

theorem retireCovered_claimView (s : State) (w : AnchorWrite) : (s.retireCovered w).claimView = s.claimView := by
  unfold State.retireCovered
  dsimp only
  split <;> split <;> simp only [retireBank_claimView]

theorem endTransfer_claimView (s : State) : s.endTransfer.claimView = s.claimView := by
  unfold State.endTransfer
  dsimp only
  split
  · split <;> rfl
  · rfl
  · rfl

theorem closeStretch_claimView (s : State) (t : Transfer) (stop : Bool) : (s.closeStretch t stop).claimView = s.claimView := by
  unfold State.closeStretch
  split
  · exact endTransfer_claimView (s.setTransfer (some t))
  · rfl

theorem refuseStretch_claimView (s : State) (n : Nat) (stop : Bool) : (s.refuseStretch n stop).claimView = s.claimView := by
  unfold State.refuseStretch
  dsimp only
  split
  · exact endTransfer_claimView (s.setAcks _)
  · rfl

theorem sendNothing_claimView (s : State) (stop : Bool) : (s.sendNothing stop).claimView = s.claimView := by
  unfold State.sendNothing
  dsimp only
  split
  · exact endTransfer_claimView _
  · rfl

theorem valuesTaken_claimView (s : State) : s.valuesTaken.claimView = s.claimView := by
  unfold State.valuesTaken State.dropOldest
  split
  · split <;> rfl
  · rfl

theorem readTransfer_claimView (s : State) (frame : Framing) (n : Nat) : (s.readTransfer frame n).claimView = s.claimView := by
  have sent (t : State) (left : List Byte) : (t.sendBytes left n frame.stop).claimView = t.claimView :=
    closeStretch_claimView _ _ _
  unfold State.readTransfer
  dsimp only
  split
  · split
    · rw [sent, valuesTaken_claimView, endTransfer_claimView]
    · exact endTransfer_claimView s
  · split
    · exact sent s _
    · exact sendNothing_claimView s _
    · exact sendNothing_claimView s _

/-! ## The held-write slot, voids and refusals (R11 to R16, R24) -/

/-- R11: a write that does not await the memory port leaves the slot. -/
theorem clearSlot_claimsSound {s : State} (h : s.claimsSound) {x : HeldWrite} (held : s.host.slot = some x)
    (awaits : x.awaits ≠ .port) : s.clearSlot.claimsSound := by
  have not_before : ¬s.host.awaitsPort := by
    rintro ⟨y, hy, port⟩
    rw [held] at hy
    cases hy
    exact awaits port
  have not_after : ¬s.clearSlot.host.awaitsPort := by
    rintro ⟨y, hy, _⟩
    cases hy
  exact setHost_claimsSound h rfl (iff_of_false not_after not_before) (.inr rfl)

/-- R11, R71: a write that awaits something other than the memory port leaves the slot. -/
theorem clearAwaiting_claimsSound {s : State} (h : s.claimsSound) {x : HeldWrite} {w : Awaits}
    (held : s.slotAwaiting w = some x) (not_port : w ≠ .port) : s.clearSlot.claimsSound := by
  obtain ⟨slot, awaits⟩ := State.slotAwaiting_spec held
  exact clearSlot_claimsSound h slot (awaits ▸ not_port)

theorem refuseWaiting_claimsSound {s : State} (h : s.claimsSound) : s.refuseWaiting.claimsSound := by
  unfold State.refuseWaiting
  split
  · rename_i x held
    have cleared := clearAwaiting_claimsSound h held (by decide)
    exact cleared
  · exact h

theorem voidTxn_claimsSound {s : State} (h : s.claimsSound) (r : VoidReason) : (s.voidTxn r).claimsSound := by
  unfold State.voidTxn
  split
  · exact claimsSound_of_view h (setBank_claimView s _ _)
  · exact refuseWaiting_claimsSound
      (s := { s with txn := { s.txn with context := .voided r, openTimer := .stopped } }) h
  · exact h
  · exact h

theorem refusalAction_claimsSound {s : State} (h : s.claimsSound) (x : RefusalAction) : (s.refusalAction x).claimsSound := by
  cases x with
  | drop => exact h
  | dropAndReset =>
    exact voidTxn_claimsSound (s := { s with host := { s.host with pulse := some Config.pulseMicros } }) h .hostReset

theorem refuse_claimsSound {s : State} (h : s.claimsSound) (c : Reason) (a : Addr) (k : Classified) :
    (s.refuse c a k).claimsSound :=
  refusalAction_claimsSound (s := s.offerRefused c a k.entry) h _

theorem refuseLocked_claimsSound {s : State} (h : s.claimsSound) (a : Addr) (k : Classified) :
    (s.refuseLocked a k).claimsSound :=
  refusalAction_claimsSound (voidTxn_claimsSound (s := s.offerRefused .locked a k.entry) h _) _

theorem capture_claimsSound {s : State} (h : s.claimsSound) (b : BankId) (a : Addr) (d : Word) (l : Lanes) :
    (s.capture b a d l).claimsSound := by
  unfold State.capture
  split
  · exact claimsSound_of_view h (setBank_claimView s _ _)
  · exact voidTxn_claimsSound h .overflow

/-! ## Taking a cycle at an idle host port (R1 to R18) -/

section Take
variable {s : State} (h : s.claimsSound) (idle : s.hostIdle)
include h idle

/-- R11: a write enters the slot and awaits the hold condition or a bank. -/
theorem holdWrite_claimsSound {x : HeldWrite} (awaits : x.awaits ≠ .port) : (s.holdWrite x).claimsSound := by
  obtain ⟨no_access, no_slot⟩ := idle
  have not_before : ¬s.host.awaitsPort := by simp [HostPort.awaitsPort, no_slot]
  have not_after : ¬(s.holdWrite x).host.awaitsPort := by simpa [HostPort.awaitsPort, State.holdWrite] using awaits
  exact setHost_claimsSound h rfl (iff_of_false not_after not_before) (.inl no_access)

/-- R9: a PASS write claims. -/
theorem passWrite_claimsSound (a : Addr) (d : Word) (l : Lanes) : (s.passWrite a d l).claimsSound :=
  hostClaim_claimsSound (p := { s.host with access := some .passWrite }) h (not_claims_host h idle)
    (.inl (Option.some_ne_none _)) (.inr idle.2) _

/-- R18, R68: a read that needs memory claims. -/
theorem claimRead_claimsSound (c : HostCycle) (found : Word) (need : Lanes) : (s.claimRead c found need).claimsSound :=
  hostClaim_claimsSound (p := { s.host with access := some (.read c.lanes found need) }) h (not_claims_host h idle)
    (.inl (Option.some_ne_none _)) (.inr idle.2) _

theorem passOrHold_claimsSound (c : HostCycle) (k : Classified) : (s.passOrHold c k).claimsSound := by
  unfold State.passOrHold
  split
  · exact claimsSound_of_view (holdWrite_claimsSound h idle (by simp))
      ((promoteIn_claimView _ _ _).trans (promoteIn_claimView _ _ _))
  · exact passWrite_claimsSound h idle _ _ _

theorem routePlain_claimsSound (c : HostCycle) (k : Classified) : (s.routePlain c k).claimsSound := by
  unfold State.routePlain
  split
  · exact passOrHold_claimsSound h idle c k
  · exact capture_claimsSound h _ _ _ _
  · exact holdWrite_claimsSound h idle nofun
  · exact h

theorem routeJournaled_claimsSound (c : HostCycle) (k : Classified) : (s.routeJournaled c k).claimsSound := by
  unfold State.routeJournaled
  split
  · exact refuse_claimsSound h _ _ _
  · exact capture_claimsSound h _ _ _ _
  · exact holdWrite_claimsSound h idle nofun
  · exact h

theorem routeWrite_claimsSound (c : HostCycle) (k : Classified) : (s.routeWrite c k).claimsSound := by
  unfold State.routeWrite
  split
  · exact refuse_claimsSound h _ _ _
  · exact refuse_claimsSound h _ _ _
  · exact refuse_claimsSound h _ _ _
  · exact refuseLocked_claimsSound h _ _
  · exact routeJournaled_claimsSound h idle c k
  · exact routePlain_claimsSound h idle c k

theorem takeWrite_claimsSound (c : HostCycle) : (s.takeWrite c).claimsSound := by
  unfold State.takeWrite
  split
  · exact h
  all_goals exact routeWrite_claimsSound h idle c _

theorem takeRead_claimsSound (c : HostCycle) : (s.takeRead c).claimsSound := by
  unfold State.takeRead
  split
  · exact h
  · split
    · exact claimRead_claimsSound h idle _ _ _
    · unfold State.forward
      dsimp only
      split
      · exact h
      · exact claimRead_claimsSound h idle _ _ _

theorem takeCycle_claimsSound : s.takeCycle.claimsSound := by
  unfold State.takeCycle
  split
  · exact h
  · rename_i c _
    let t : State := { s with host := { s.host with cycleTaken := true } }
    have ht : t.claimsSound := h
    have idle_t : t.hostIdle := idle
    dsimp only
    split
    · unfold State.takeLaneless
      split <;> exact ht
    · split
      · exact takeWrite_claimsSound ht idle_t c
      · exact takeRead_claimsSound ht idle_t c

end Take

/-- R2: a cycle is taken where no access is in progress. -/
theorem hostIdle_of_cycleReady {s : State} (h : s.cycleReady = true) : s.hostIdle := by
  obtain ⟨⟨_, idle⟩, _⟩ := (cycleReady_iff s).mp h
  exact idle

theorem takeWaiting_claimsSound {s : State} (h : s.claimsSound) : s.takeWaiting.claimsSound := by
  unfold State.takeWaiting
  split
  · rename_i ready
    exact takeCycle_claimsSound h (hostIdle_of_cycleReady ready)
  · exact h

theorem presentCycle_claimsSound {s : State} (h : s.claimsSound) (x : HostLines) : (s.presentCycle x).claimsSound := by
  let t : State := { s with pins := { s.pins with host := x }, host := { s.host with cycleTaken := false, driven := none } }
  have ht : t.claimsSound := h
  unfold State.presentCycle
  dsimp only
  split
  · exact ht
  · rename_i free
    have idle : t.hostIdle := by
      simp only [State.hostBusy, Bool.or_eq_true, not_or, Bool.not_eq_true, Option.isSome_eq_false_iff,
        Option.isNone_iff_eq_none] at free
      exact free.1
    exact takeCycle_claimsSound ht idle

/-! ## A bank becomes FREE (R23, R71) -/

theorem openWaiting_claimsSound {s : State} (h : s.claimsSound) : s.openWaiting.claimsSound := by
  rcases openWaiting_cases s with ⟨e, _⟩ | ⟨b, _, ⟨x, slot, awaits, e⟩ | ⟨_, e⟩⟩ <;> rw [e]
  · exact h
  · have emptied : s.slotEmptied.claimsSound := clearSlot_claimsSound h slot (by rw [awaits]; decide)
    exact claimsSound_of_view emptied (openedOn_claimView _ _ _)
  · exact claimsSound_of_view h (openedOn_claimView _ _ _)

/-- R71: the hold ends, and the write claims. -/
theorem examineHold_claimsSound {s : State} (h : s.claimsSound) : s.examineHold.claimsSound := by
  unfold State.examineHold
  split
  · rename_i x held
    obtain ⟨slot, awaits⟩ := State.slotAwaiting_spec held
    obtain ⟨_, host, alone, _⟩ := id h
    have no_access : s.host.access = none := alone.resolve_right (by simp [slot])
    have free : ¬s.claims .host := by simp [host, no_access, slot, awaits]
    split
    · exact h
    · exact hostClaim_claimsSound (p := { s.host with
          slot := some { x with awaits := .port }, holdTimer := { s.host.holdTimer with running := false } })
        h free (.inr ⟨_, rfl, rfl⟩) (.inl no_access) _
  · exact h

/-! ## TXN and ABT (R22, R25, R31 to R36) -/

theorem rise_claimsSound {s : State} (h : s.claimsSound) : s.rise.claimsSound := by
  let t : State := { s with pins := { s.pins with txnHigh := true } }
  have begun : t.riseBegins.riseContext.claimsSound := claimsSound_of_view h (riseContext_claimView t.riseBegins)
  unfold State.rise
  dsimp only
  split
  · unfold State.pulseNotice
    split
    · exact voidTxn_claimsSound begun _
    · exact begun
  · exact h

/-- R33: the write held for a bank is refused before the release is answered. -/
theorem releaseWaiting_claimsSound {s : State} (h : s.claimsSound) : s.releaseWaiting.claimsSound := by
  unfold State.releaseWaiting
  split
  · rename_i x held
    have cleared := clearAwaiting_claimsSound h held (by decide)
    exact cleared
  · exact h

theorem fall_claimsSound {s : State} (h : s.claimsSound) : s.fall.claimsSound := by
  let t : State := { s with pins := { s.pins with txnHigh := false } }
  have ht : t.claimsSound := h
  unfold State.fall
  dsimp only
  split
  · unfold State.releaseTaken
    split
    · exact claimsSound_of_view ht (releaseOpen_claimView t _)
    · exact releaseWaiting_claimsSound ht
    · exact ht
    · exact ht
  · exact ht

theorem abort_claimsSound {s : State} (h : s.claimsSound) : s.abort.claimsSound := by
  unfold State.abort
  split
  · exact voidTxn_claimsSound h _
  · exact h

/-! ## The timebase (R15, R28 to R30, R75, R76) -/

/-- R76: only a write that awaits the hold condition or a bank expires. -/
theorem expireHold_claimsSound {s : State} (h : s.claimsSound) : s.expireHold.claimsSound := by
  unfold State.expireHold
  split
  · rename_i x held
    let t : State := s.clearSlot.offerRefused .holdExpired x.addr x.entry
    have cleared (other : x.awaits ≠ .port) : t.claimsSound := claimsSound_of_view (clearSlot_claimsSound h held other) rfl
    dsimp only
    split
    · rename_i awaits
      exact cleared (by rw [awaits]; decide)
    · rename_i awaits
      exact voidTxn_claimsSound (cleared (by rw [awaits]; decide)) _
    · exact h
  · exact h

theorem holdExpiry_claimsSound {s : State} (h : s.claimsSound) : s.holdExpiry.claimsSound := by
  unfold State.holdExpiry
  split
  · exact expireHold_claimsSound (claimsSound_of_view h (advance_claimView s _))
  · exact h

theorem openExpiry_claimsSound {s : State} (h : s.claimsSound) : s.openExpiry.claimsSound := by
  unfold State.openExpiry
  split
  · exact voidTxn_claimsSound (claimsSound_of_view h (advance_claimView s _)) _
  · exact h

theorem tick_claimsSound {s : State} (h : s.claimsSound) : s.tick.claimsSound := by
  have pulse : (s.advance 1).pulseDue.claimsSound := by
    have advanced := claimsSound_of_view h (advance_claimView s 1)
    unfold State.pulseDue
    split
    · exact claimsSound_of_view advanced (pulseEnd_claimView _)
    · exact advanced
  have hold : (s.advance 1).pulseDue.holdDue.claimsSound := by
    unfold State.holdDue
    split
    · exact holdExpiry_claimsSound pulse
    · exact pulse
  unfold State.tick State.openDue
  split
  · exact openExpiry_claimsSound hold
  · exact hold

theorem idleStep_claimsSound {s : State} (h : s.claimsSound) : s.idleStep.claimsSound := by
  unfold State.idleStep
  split
  · rename_i ready
    exact takeCycle_claimsSound h (hostIdle_of_cycleReady ready)
  · exact tick_claimsSound h

/-! ## MEMORY_CLAIM and GRANT (R135, R136) -/

theorem nextClaim_claimsSound {s : State} (h : s.claimsSound) (who : Claimant) : (s.nextClaim who).claimsSound := by
  unfold State.nextClaim
  split
  · rename_i can
    have free := (canClaim_iff s who).mp can
    cases who with
    | log =>
      unfold State.claimLog
      dsimp only
      split
      · rename_i j _
        split
        · exact claim_claimsSound (s := { s with log := { s.log with crc := s.crcAfterClaim j } }) h free
            (by decide) (fun e => nomatch e) _
        · exact h
      · exact h
    | anchor =>
      unfold State.claimAnchor
      dsimp only
      split
      · rename_i w hw
        split
        · exact claim_claimsSound h free (by decide) (fun _ => .inl (by simp [hw])) _
        · exact h
      · exact h
    | startup =>
      unfold State.claimStartup
      dsimp only
      split
      · split
        · exact claim_claimsSound h free (by decide) (fun e => nomatch e) _
        · exact h
      · exact h
    | host => exact takeWaiting_claimsSound h
    | apply => exact h
  · exact h

theorem execGrant_claimsSound {s t : State} (h : s.claimsSound) (e : execGrant s = .next t) : t.claimsSound := by
  cases hg : s.grantable with
  | none =>
    rw [execGrant_none hg] at e
    cases e
    exact h
  | some f =>
    obtain ⟨idle, _, _, waits⟩ := grantable_eq_some_iff.mp hg
    rcases Nat.lt_or_ge f.access.addr.toNat s.memSize with present | absent
    · rw [execGrant_granted hg present] at e
      cases e
      exact granted_claimsSound h idle waits
    · rw [execGrant_absent hg absent] at e
      cases e

/-! ## The host port's completions and the engines (R71, R92, R94, R101 to R105) -/

/-- R2, R11: beside an access in progress no write is held. -/
theorem not_awaitsPort_of_access {s : State} (h : s.claimsSound) {a : HostAccess} (access : s.host.access = some a) :
    ¬s.host.awaitsPort := by
  obtain ⟨_, _, alone, _⟩ := h
  have no_slot : s.host.slot = none := alone.resolve_left (by simp [access])
  simp [HostPort.awaitsPort, no_slot]

/-- R9, R68, R71: the access in progress, or the held write that awaited the port, is over. -/
theorem hostCompletion_claimsSound {s : State} (h : s.claimsSound) : s.hostCompletion.claimsSound := by
  unfold State.hostCompletion
  split
  · rename_i x flies
    unfold State.finishHostAccess
    split
    · rename_i access
      exact landedHost_claimsSound h flies rfl (not_awaitsPort_of_access (s := s) h access)
    · rename_i access
      exact landedHost_claimsSound h flies rfl (not_awaitsPort_of_access (s := s) h access)
    · rename_i no_access
      obtain ⟨_, host, _, _⟩ := id h
      have awaits : s.host.awaitsPort :=
        (host.mp (.inr ⟨_, flightOf_eq_some flies, rfl⟩)).resolve_left (not_not.mpr no_access)
      obtain ⟨y, slot, port⟩ := awaits
      have held : ((s.landed x).slotAwaiting .port).isSome = true := by
        rw [slotAwaiting_some (s := s.landed x) slot port]
        rfl
      rw [if_pos held]
      exact landedHost_claimsSound h flies no_access (by rintro ⟨_, e, _⟩; cases e)
  · exact h

theorem imageCompletion_claimsSound {s : State} (h : s.claimsSound) : s.imageCompletion.claimsSound := by
  unfold State.imageCompletion
  split
  · rename_i x flies
    have landed := landed_claimsSound h flies (by decide)
    split
    · split
      · exact claimsSound_of_view landed (imageWordDone_claimView _ _)
      · exact landed
    · exact landed
  · exact h

theorem applyChoice_claimsSound {s : State} (h : s.claimsSound) : s.applyChoice.claimsSound := by
  unfold State.applyChoice
  split
  · split
    · rename_i chooses
      obtain ⟨_, _, can⟩ := chooses
      have free := (canClaim_iff s .apply).mp can
      split
      · rename_i i _
        split
        · exact claim_claimsSound (s := { s with apply := { s.apply with inFlight := some i } }) h free
            (by decide) (fun e => nomatch e) _
        · exact h
      · exact h
    · exact h
  · exact h

/-- R105: a bank that retires requests an anchor write. -/
theorem retire_claimsSound {s : State} (h : s.claimsSound) (b : BankId) : (s.retire b).claimsSound :=
  requestWrite_claimsSound (claimsSound_of_view h (by cases b <;> rfl))

theorem homeWriteDone_claimsSound {s : State} (h : s.claimsSound) (b : BankId) (i : Nat) :
    (s.homeWriteDone b i).claimsSound := by
  have applied : ({ s.setBank b ((s.bank b).entryApplied i) with apply := { s.apply with inFlight := none } } :
      State).claimsSound := claimsSound_of_view h (setBank_claimView s b _)
  unfold State.homeWriteDone
  dsimp only
  split
  · exact retire_claimsSound applied b
  · exact applied

theorem homeCompletion_claimsSound {s : State} (h : s.claimsSound) : s.homeCompletion.claimsSound := by
  unfold State.homeCompletion
  split
  · rename_i x flies
    have landed := landed_claimsSound h flies (by decide)
    split
    · split
      · exact homeWriteDone_claimsSound landed _ _
      · exact landed
    · exact landed
    · exact landed
  · exact h

/-! ## The end of a start-up (R159) -/

theorem endStartup_claimsSound {s : State} (h : s.claimsSound) (part : PartState) : (s.endStartup part).claimsSound := by
  obtain ⟨stays, takes⟩ := endStartup_spec s part
  by_cases waits : recognised s.pins.host ≠ none ∧ s.host.cycleTaken = false ∧ s.host.access = none ∧ s.host.slot = none
  · rw [takes waits]
    obtain ⟨_, _, idle⟩ := waits
    exact takeCycle_claimsSound (s := s.handOver part) h idle
  · rw [stays waits]
    exact h

/-! ## The anchor writer (R120 to R130) -/

/-- R129: the FORMAT goes on or ends, the anchor writer having no claim. -/
theorem carriedDone_claimsSound {s : State} (h : s.claimsSound) (free : ¬s.claims .anchor) (w : AnchorWrite) :
    (s.carriedDone w).claimsSound := by
  unfold State.carriedDone
  split
  · exact h
  · unfold State.formatWriteDone
    split
    · split
      · exact setAnchor_claimsSound h fun c => absurd c free
      · exact h
      · exact setAnchor_claimsSound h fun c => absurd c free
      · exact h
    · exact h
  · exact h

/-- R123: the write completes with its last word, and leaves the anchor writer no claim. -/
theorem completeWrite_claimsSound {s : State} (h : s.claimsSound) (free : ¬s.claims .anchor) (w : AnchorWrite) :
    (s.completeWrite w).claimsSound := by
  have idle : ({ s with anchor := (s.writeDone w).anchor } : State).claimsSound :=
    setAnchor_claimsSound h fun c => absurd c free
  have done : (s.writeDone w).claimsSound := idle
  have view := retireCovered_claimView (s.writeDone w) w
  have retired := claimsSound_of_view done view
  have carried := carriedDone_claimsSound retired (fun c => free ((claims_of_view view _).mp c)) w
  have served := examineHold_claimsSound (openWaiting_claimsSound carried)
  unfold State.completeWrite State.closingDone
  split
  · exact endStartup_claimsSound served .run
  · exact served

theorem anchorCompletion_claimsSound {s : State} (h : s.claimsSound) : s.anchorCompletion.claimsSound := by
  unfold State.anchorCompletion
  split
  · rename_i x w flies _
    have landed := landed_claimsSound h flies (by decide)
    have free : ¬(s.landed x).claims .anchor := fun c => ((claims_landed h flies .anchor).mp c).1 rfl
    split
    · unfold State.anchorWordDone
      split
      · exact completeWrite_claimsSound landed free w
      · exact setAnchor_claimsSound landed fun c => absurd c free
    · exact landed
  · exact h
  · exact h

theorem pendingStart_claimsSound {s : State} (h : s.claimsSound) : s.pendingStart.claimsSound := by
  unfold State.pendingStart
  split
  · exact startWrite_claimsSound h
  · exact h

/-- R128: the clear has completed, and the first anchor write of the FORMAT starts. -/
theorem clearCompletion_claimsSound {s : State} (h : s.claimsSound) : s.clearCompletion.claimsSound := by
  unfold State.clearCompletion
  split
  · rename_i x j flies _
    have landed := landed_claimsSound h flies (by decide)
    split
    · exact setAnchor_claimsSound landed fun _ => .inl (Option.some_ne_none _)
    · exact landed
  · exact h
  · exact h

theorem secondStart_claimsSound {s : State} (h : s.claimsSound) : s.secondStart.claimsSound := by
  unfold State.secondStart
  split
  · split
    · exact setAnchor_claimsSound h fun _ => .inl (Option.some_ne_none _)
    · exact h
  · exact h

/-! ## Halts and resets (R141, R144, R145, R157) -/

theorem pfwFall_claimsSound {s : State} (h : s.claimsSound) : s.pfwFall.claimsSound := by
  unfold State.pfwFall
  dsimp only
  split <;> exact h

/-- R141, R145: a reset leaves no claim and no access in progress. -/
theorem resetBy_claimsSound (s : State) (cause : ResetCause) (x : Straps) : (s.resetBy cause x).claimsSound := by
  have no_claim (who : Claimant) : ¬(s.resetBy cause x).claims who := by
    rintro (waits | ⟨f, flies, _⟩)
    · exact waits (by cases who <;> rfl)
    · cases flies
  refine ⟨fun _ _ _ flies => (nomatch flies), iff_of_false (no_claim _) ?_, .inl rfl, fun c => absurd c (no_claim _)⟩
  rintro (busy | ⟨_, held, _⟩)
  · exact busy rfl
  · cases held

theorem pfwRise_claimsSound {s : State} (h : s.claimsSound) (x : Straps) : (s.pfwRise x).claimsSound := by
  unfold State.pfwRise
  dsimp only
  split
  · exact resetBy_claimsSound _ _ _
  · exact h

/-! ## Start-up and recovery (R147 to R154) -/

theorem endScan_claimsSound {s : State} (h : s.claimsSound) : s.endScan.claimsSound := by
  have settled : s.settleScan.claimsSound := h
  unfold State.endScan
  dsimp only
  split
  · exact requestWrite_claimsSound settled
  · exact endStartup_claimsSound settled .run

theorem stopScan_claimsSound {s : State} (h : s.claimsSound) (discard : Bool) : (s.stopScan discard).claimsSound := by
  unfold State.stopScan
  split
  · exact endScan_claimsSound (s := s.discardPartial) h
  · exact endScan_claimsSound h

theorem scanHere_claimsSound {s : State} (h : s.claimsSound) : s.scanHere.claimsSound := by
  let t : State := { s with start := { s.start with phase := .scan 0 0 0 } }
  have ht : t.claimsSound := h
  unfold State.scanHere
  dsimp only
  split
  · exact stopScan_claimsSound ht _
  · exact ht

theorem chooseAnchor_claimsSound {s : State} (h : s.claimsSound) (a b : List Word) : (s.chooseAnchor a b).claimsSound := by
  obtain ⟨m, hm⟩ := State.offerCopy_spec s .a (copyFailure s.memSize a)
  obtain ⟨n, hn⟩ := State.offerCopy_spec { s with mgmt := m } .b (copyFailure s.memSize b)
  let t : State := { s with mgmt := n }
  have loaded (c : Copy) (ws : List Word) (k : Nat) : (t.loadCopy c ws k).claimsSound := h
  have reported : t.reportUnformatted.claimsSound := h
  unfold State.chooseAnchor
  dsimp only
  rw [hm, hn]
  split
  · exact scanHere_claimsSound (loaded _ _ _)
  · exact scanHere_claimsSound (loaded _ _ _)
  · exact endStartup_claimsSound reported .unformatted

theorem anchorWordRead_claimsSound {s : State} (h : s.claimsSound) (words : List Word) :
    (s.anchorWordRead words).claimsSound := by
  unfold State.anchorWordRead
  split
  · unfold State.endAnchorReads
    split
    · exact chooseAnchor_claimsSound h _ _
    · exact h
  · exact h

theorem anchorReadDone_claimsSound {s : State} (h : s.claimsSound) : s.anchorReadDone.claimsSound := by
  unfold State.anchorReadDone
  split
  · rename_i x words flies _
    have landed := landed_claimsSound h flies (by decide)
    split
    · exact anchorWordRead_claimsSound landed _
    · exact landed
  · exact h

theorem scanReadDone_claimsSound {s : State} (h : s.claimsSound) : s.scanReadDone.claimsSound := by
  unfold State.scanReadDone
  split
  · rename_i x word count head flies _
    have landed := landed_claimsSound h flies (by decide)
    have taken (w : Word) : ((s.landed x).takenInScan (imagePlace word count) w).claimsSound := landed
    split
    · unfold State.scanWord
      dsimp only
      split
      · exact taken (readWord s.mem x.addr)
      · exact stopScan_claimsSound (taken _) _
    · exact landed
  · exact h

theorem replayReadDone_claimsSound {s : State} (h : s.claimsSound) : s.replayReadDone.claimsSound := by
  unfold State.replayReadDone
  split
  · rename_i x count entry record flies _
    have landed := landed_claimsSound h flies (by decide)
    split
    · split <;> exact landed
    · exact h
  · exact h

theorem replayWriteDone_claimsSound {s : State} (h : s.claimsSound) : s.replayWriteDone.claimsSound := by
  unfold State.replayWriteDone
  split
  · rename_i x count entry record flies _
    have landed := landed_claimsSound h flies (by decide)
    have replayed : ((s.landed x).imageReplayed count).claimsSound := landed
    split
    · exact h
    · split
      · unfold State.replayedEntry
        split
        · exact landed
        · exact scanHere_claimsSound replayed
      · exact landed
  · exact h

/-! ## Write transfers of the management port (R161 to R171) -/

theorem configByte_claimsSound {s : State} (h : s.claimsSound) (o : Nat) (l : List Byte) (b : Byte) :
    (s.configByte o l b).2.claimsSound := by
  have configured (c : Configuration) : (s.setConfig c).claimsSound := h
  unfold State.configByte
  split
  · exact h
  · show (State.openLimitActs _).claimsSound
    unfold State.openLimitActs
    split
    · exact voidTxn_claimsSound (configured _) _
    · exact configured _
  · exact h
  · show (State.holdLimitActs _).claimsSound
    unfold State.holdLimitActs
    split
    · exact expireHold_claimsSound (configured _)
    · exact configured _
  all_goals exact h

theorem acceptByte_claimsSound {s : State} (h : s.claimsSound) (i o : Nat) (l : List Byte) (b : Byte) :
    (s.acceptByte i o l b).2.claimsSound := by
  unfold State.acceptByte
  split
  · exact configByte_claimsSound h _ _ _
  · unfold State.editByte
    split <;> exact h
  · unfold State.liveByte
    split <;> exact h
  · unfold State.viewByte
    split <;> exact h
  · unfold State.commandByte
    split <;> exact h
  · exact h

theorem takeByte_claimsSound {s : State} (h : s.claimsSound) (w : WriteTransfer) (b : Byte) :
    (s.takeByte w b).2.2.claimsSound := by
  unfold State.takeByte
  split
  · exact h
  · split
    · split <;> exact h
    · split
      · exact h
      · exact acceptByte_claimsSound h _ _ _ _

theorem takeBytes_claimsSound (bs : List Byte) :
    ∀ (w : WriteTransfer) {s : State}, s.claimsSound → (takeBytes bs w s).2.2.claimsSound := by
  induction bs with
  | nil => exact fun _ _ h => h
  | cons b rest ih => exact fun w _ h => ih _ (takeByte_claimsSound h w b)

theorem goOnWriting_claimsSound {s : State} (h : s.claimsSound) (w : WriteTransfer) (acks : List Bool) (bs : List Byte)
    (stop : Bool) : (s.goOnWriting w acks bs stop).claimsSound :=
  claimsSound_of_view (takeBytes_claimsSound bs w h) (closeStretch_claimView _ _ stop)

theorem writeTransfer_claimsSound {s : State} (h : s.claimsSound) (frame : Framing) (first bs : List Byte) :
    (s.writeTransfer frame first bs).claimsSound := by
  have ended := claimsSound_of_view h (endTransfer_claimView s)
  unfold State.writeTransfer
  dsimp only
  split
  · split
    · exact goOnWriting_claimsSound ended _ _ _ _
    · exact ended
  · split
    · exact goOnWriting_claimsSound h _ _ _ _
    · exact claimsSound_of_view h (refuseStretch_claimView s _ _)
    · exact claimsSound_of_view h (refuseStretch_claimView s _ _)

/-! ## The takes of the management commands (R125 to R127, R171 to R173) -/

/-- R171: the take of a command whose effect keeps the claims sound. -/
theorem takeDue_claimsSound {s : State} (h : s.claimsSound) (named : Byte → Bool) {effect : Byte → State → State}
    (keeps : ∀ c, (effect c s.disarm).claimsSound) : (s.takeDue named effect).claimsSound := by
  unfold State.takeDue
  split
  · split
    · split
      · exact keeps _
      · exact h
    · exact h
  · exact h

theorem abortTaken_claimsSound {s : State} (h : s.claimsSound) : s.abortTaken.claimsSound := by
  unfold State.abortTaken
  split
  · exact voidTxn_claimsSound h .aborted
  · exact voidTxn_claimsSound h .aborted
  · exact h
  · exact h

theorem guardsTaken_claimsSound {s : State} (h : s.claimsSound) : s.guardsTaken.claimsSound := by
  unfold State.guardsTaken
  split
  · exact h
  · split
    · exact requestWrite_claimsSound h
    · exact h

/-- R126: a FORMAT that is not BUSY_STATE finds the anchor writer without work, as no FORMAT is under way outside FORMATTING. -/
theorem not_hasWork_of_formatBusy {s : State} (hp : s.protocol) (ready : ¬s.formatBusy = true) : ¬s.anchor.hasWork := by
  simp only [State.formatBusy, Bool.or_eq_true, decide_eq_true_eq, not_or, Option.isSome_iff_ne_none, ne_eq,
    not_not] at ready
  obtain ⟨⟨⟨⟨part, _⟩, _⟩, no_write⟩, _⟩ := ready
  have no_format : s.anchor.format = none :=
    hp.noFormat (fun e => part (by rw [e]; decide)) (fun e => part (by rw [e]; decide))
  simp [AnchorWriter.hasWork, no_write, no_format]

/-- R127: an accepted FORMAT claims its clear write. -/
theorem formatTaken_claimsSound {s : State} (hp : s.protocol) (h : s.claimsSound) : s.formatTaken.claimsSound := by
  unfold State.formatTaken
  split
  · exact h
  · rename_i ready
    split
    · obtain ⟨_, _, _, work⟩ := id h
      have free : ¬s.claims .anchor := fun c => not_hasWork_of_formatBusy hp ready (work c)
      have accepted : ({ s with anchor := { s.anchor with format := some (s.formatJob s.formatRegion) } } :
          State).claimsSound := setAnchor_claimsSound h fun c => absurd c free
      exact claim_claimsSound accepted free (by decide) (fun _ => .inr ⟨_, rfl, rfl⟩) _
    · exact h

/-! ## Every command, and the step -/

theorem exec_claimsSound {s t : State} (hp : s.protocol) (h : s.claimsSound) (c : Instr) (e : exec c s = .next t) :
    t.claimsSound := by
  cases c with
  | grant => exact execGrant_claimsSound h e
  | hostWrite a d l oe => cases e; exact presentCycle_claimsSound h _
  | hostRead a l => cases e; exact presentCycle_claimsSound h _
  | hostCycleEnd => cases e; exact h
  | hostAccessCompletion => cases e; exact hostCompletion_claimsSound h
  | refusalPulseEnd => cases e; exact claimsSound_of_view h (pulseEnd_claimView s)
  | holdExpired => cases e; exact holdExpiry_claimsSound h
  | openTimerExpiry => cases e; exact openExpiry_claimsSound h
  | txnRise => cases e; exact rise_claimsSound h
  | release => cases e; exact fall_claimsSound h
  | abtRise => cases e; exact abort_claimsSound h
  | memoryClaim who => cases e; exact nextClaim_claimsSound h who
  | logWriterTake => cases e; exact claimsSound_of_view h (logTake_claimView s)
  | imageWordCompletion => cases e; exact imageCompletion_claimsSound h
  | applyTake => cases e; exact claimsSound_of_view h (applyTake_claimView s)
  | applyChoice => cases e; exact applyChoice_claimsSound h
  | homeWriteCompletion => cases e; exact homeCompletion_claimsSound h
  | pendingWriteStart => cases e; exact pendingStart_claimsSound h
  | anchorWordCompletion => cases e; exact anchorCompletion_claimsSound h
  | formatClearCompletion => cases e; exact clearCompletion_claimsSound h
  | formatSecondWriteStart => cases e; exact secondStart_claimsSound h
  | powerOn pins => cases e; exact resetBy_claimsSound s .powerOn pins.straps
  | resetPin straps => cases e; exact resetBy_claimsSound s .resetPin straps
  | rstRise => cases e; exact h
  | powerResume straps => cases e; exact pfwRise_claimsSound h straps
  | pfwFall => cases e; exact pfwFall_claimsSound h
  | anchorReadCompletion => cases e; exact anchorReadDone_claimsSound h
  | scanReadCompletion => cases e; exact scanReadDone_claimsSound h
  | replayReadCompletion => cases e; exact replayReadDone_claimsSound h
  | replayWriteCompletion => cases e; exact replayWriteDone_claimsSound h
  | registerWrite frame bytes => cases e; exact writeTransfer_claimsSound h frame [] bytes
  | configWrite frame bytes => cases e; exact writeTransfer_claimsSound h frame [0x04] bytes
  | faultRead frame count => cases e; exact claimsSound_of_view h (readTransfer_claimView s frame count)
  | abort => cases e; exact takeDue_claimsSound h _ fun _ => abortTaken_claimsSound (s := s.disarm) h
  | applyGuards => cases e; exact takeDue_claimsSound h _ fun _ => guardsTaken_claimsSound (s := s.disarm) h
  | reloadGuardEdit => cases e; exact takeDue_claimsSound h _ fun _ => h
  | format => cases e; exact takeDue_claimsSound h _ fun _ => formatTaken_claimsSound (s := s.disarm) hp h
  | clearFaults => cases e; exact takeDue_claimsSound h _ fun _ => h
  | clearCounters => cases e; exact takeDue_claimsSound h _ fun _ => h
  | softReset straps => cases e; exact takeDue_claimsSound h _ fun _ => resetBy_claimsSound _ .soft straps
  | unknownCommand => cases e; exact takeDue_claimsSound h _ fun _ => h

/-- Settles O57: a step is the command at the front of the queue, or an idle step, and each keeps the claims sound. -/
theorem stepKeepsOneClaimEach : Obligations.StepKeepsOneClaimEach := by
  intro s t hp h e
  cases hq : s.pending with
  | nil =>
    simp only [step, hq] at e
    cases e
    exact idleStep_claimsSound h
  | cons c rest =>
    rw [stepTakesTheFrontCommand s c rest hq] at e
    exact exec_claimsSound (s := { s with pending := rest }) hp h c e

end Sys2Proof.Machine
end

section
/-! The timebase on an empty queue (R15, R29, R75, R146): what passes, what is then due, and O2. -/

namespace Sys2Proof.Machine

/-! ## Microseconds of the timebase -/

section Advance
variable (n : Nat)

/-- R146: the clock's milliseconds wrap at 2^32. -/
theorem Clock.advance_millis_toNat (c : Clock) :
    (c.advance n).millis.toNat = (c.millis.toNat + (c.micros + n) / 1000) % 2 ^ 32 := by
  simp [Clock.advance, BitVec.toNat_add]

theorem OpenTimer.advance_stopped {t : OpenTimer} (h : t.running = false) : t.advance n = t := by
  simp [OpenTimer.advance, h]

/-- R29: an open timer that runs goes on in microseconds, up to 65,535 ms. -/
theorem OpenTimer.advance_running {t : OpenTimer} (h : t.running = true) :
    (t.advance n).running = true ∧ (t.advance n).micros < 1000 ∧
      (t.advance n).millis * 1000 + (t.advance n).micros = min (65535 * 1000) (t.millis * 1000 + t.micros + n) := by
  simp only [OpenTimer.advance, h, if_true]
  exact ⟨trivial, Nat.mod_lt _ (by decide), Nat.div_add_mod' _ 1000⟩

theorem HoldTimer.advance_stopped {t : HoldTimer} (h : t.running = false) : t.advance n = t := by
  simp [HoldTimer.advance, h]

theorem HoldTimer.advance_running {t : HoldTimer} (h : t.running = true) :
    t.advance n = ⟨min 65535 (t.micros + n), true⟩ := by
  simp [HoldTimer.advance, h, Config.timerMax]

variable {s : State}

/-- R146: outside HALTED the clock, the timers and the refusal pulse go on, and nothing else changes. -/
theorem advance_eq (hp : s.start.part ≠ .halted) : s.advance n = { s with
    host := { s.host with holdTimer := s.host.holdTimer.advance n, pulse := s.host.pulse.map (· - n) }
    txn := { s.txn with openTimer := s.txn.openTimer.advance n }
    start := { s.start with clock := s.start.clock.advance n } } := if_neg hp

/-- R146: in HALTED the timebase is frozen. -/
theorem advance_halted (hp : s.start.part = .halted) : s.advance n = s := if_pos hp

end Advance

/-! ## What is due -/

section Due
variable {s : State}

theorem not_controllerWorks_of_halted (hp : s.start.part = .halted) : ¬s.controllerWorks := by
  rintro (h | h | h) <;> rw [hp] at h <;> cases h

/-- R75, R29: a limit is reached where no time is left to it. -/
theorem holdTimeLeft_eq_zero_iff : s.holdTimeLeft = 0 ↔ s.mgmt.config.holdLimit.toNat ≤ s.host.holdTimer.micros :=
  Nat.sub_eq_zero_iff_le

theorem openTimeLeft_eq_zero_iff : s.openTimeLeft = 0 ↔
    s.mgmt.config.openLimit.toNat * 1000 ≤ s.txn.openTimer.millis * 1000 + s.txn.openTimer.micros :=
  Nat.sub_eq_zero_iff_le

/-- R15: a pulse in its last microsecond has no time left after it. -/
theorem advance_pulse_last {n : Nat} (hp : s.start.part ≠ .halted) (h : s.host.pulse = some n) (last : n ≤ 1) :
    (s.advance 1).host.pulse = some 0 := by
  rw [advance_eq 1 hp]
  simp [h, Nat.sub_eq_zero_of_le last]

theorem advance_pulse_lasts (hp : s.start.part ≠ .halted) (h : ∀ n, s.host.pulse = some n → 1 < n) :
    (s.advance 1).host.pulse ≠ some 0 := by
  rw [advance_eq 1 hp]
  intro ended
  obtain ⟨n, pulse, zero⟩ := Option.map_eq_some_iff.mp ended
  have := h n pulse
  omega

/-- R146: in HALTED nothing is due. -/
theorem tick_halted (hp : s.start.part = .halted) : s.tick = s := by
  have idle : ¬s.controllerWorks := not_controllerWorks_of_halted hp
  have hold : s.holdExpiry = s := if_neg fun armed => idle ((holdTimerArmed_iff s).mp armed).1
  have opened : s.openExpiry = s := if_neg fun armed => idle ((openTimerArmed_iff s).mp armed).1
  simp only [State.tick, advance_halted 1 hp, State.pulseDue, pulseEnd_halted hp, State.holdDue, hold, State.openDue, opened,
    ite_self]

end Due

/-! ## A step on an empty queue -/

/-- R146: no host cycle waiting, a step on an empty queue is a microsecond. -/
theorem step_tick {s : State} (hq : s.pending = []) (h : ¬s.nextCycleWaits) : step s = .next s.tick := by
  simp only [step, hq]
  exact congrArg Host.Outcome.next (if_neg fun ready => h ((cycleReady_iff s).mp ready))

/-- Settles O2: what passes, then the step in HALTED, then the step outside it, pulse, hold and open timer in turn. -/
theorem emptyQueueAdvancesTheTimebase : Obligations.EmptyQueueAdvancesTheTimebase := by
  intro s
  refine ⟨fun n hp => ?_, fun hq hp => ?_, ?_⟩
  · rw [advance_eq n hp]
    exact ⟨rfl, Clock.advance_millis_toNat n _, rfl, OpenTimer.advance_stopped n, OpenTimer.advance_running n,
      HoldTimer.advance_stopped n, HoldTimer.advance_running n⟩
  · rw [step_tick hq fun waits => not_controllerWorks_of_halted hp waits.1.1, tick_halted hp]
  · intro hq hp hw holdDue openDue t
    rw [step_tick hq hw]
    refine ⟨t.pulseDue, t.pulseDue.holdDue, ?_, fun lasts => if_neg (advance_pulse_lasts hp lasts), fun due => ?_,
      fun early => if_neg (early ∘ holdTimeLeft_eq_zero_iff.mp), fun due => ?_, fun early => ?_⟩
    · rintro ⟨n, pulse, last⟩
      exact congrArg Host.Outcome.next (if_pos (advance_pulse_last hp pulse last)).symm
    · exact congrArg Host.Outcome.next (if_pos (holdTimeLeft_eq_zero_iff.mpr due)).symm
    · exact congrArg Host.Outcome.next (if_pos (openTimeLeft_eq_zero_iff.mpr due)).symm
    · exact congrArg Host.Outcome.next (if_neg (early ∘ openTimeLeft_eq_zero_iff.mp))

end Sys2Proof.Machine
end

section
/-! Start-up and recovery (R147 to R154, R159): the anchor reads and the copy they end with, the scan of the log, the replay of an
image and the closing write; O39 to O43. -/

namespace Sys2Proof.Machine

/-! ## The completions of the start-up controller's accesses -/

section Completion
variable {s : State} {x : Access} {words record : List Word} {word count entry : Nat} {head : Word}

/-- R147: an anchor read in flight completes; the word read joins the others in STARTUP alone. -/
theorem exec_anchorReadCompletion (hf : s.port.inFlight = some ⟨.startup, x⟩) (hw : s.start.phase = .anchors words) :
    exec .anchorReadCompletion s = .next
      (if s.start.part = .startup then (s.landed x).anchorWordRead (words ++ [readWord s.mem x.addr]) else s.landed x) := by
  show Host.Outcome.next s.anchorReadDone = _
  simp only [State.anchorReadDone, flightOf_eq hf, hw]

/-- R150: a scan read in flight completes; the word is scanned in RECOVERY alone. -/
theorem exec_scanReadCompletion (hf : s.port.inFlight = some ⟨.startup, x⟩) (hw : s.start.phase = .scan word count head) :
    exec .scanReadCompletion s = .next
      (if s.start.part = .recovery then (s.landed x).scanWord word count head (readWord s.mem x.addr) else s.landed x) := by
  show Host.Outcome.next s.scanReadDone = _
  simp only [State.scanReadDone, flightOf_eq hf, hw]

/-- R151: a read of the replay in flight completes; its word joins the record in RECOVERY alone. -/
theorem exec_replayReadCompletion (hf : s.port.inFlight = some ⟨.startup, x⟩)
    (hw : s.start.phase = .replay count entry record) (short : record.length < 3) :
    exec .replayReadCompletion s = .next
      (if s.start.part = .recovery then
        { s.landed x with start := { s.start with phase := .replay count entry (record ++ [readWord s.mem x.addr]) } }
      else s.landed x) := by
  show Host.Outcome.next s.replayReadDone = _
  simp only [State.replayReadDone, flightOf_eq hf, hw, if_pos short]

/-- R151: a write of the replay in flight completes; the replay goes on in RECOVERY alone. -/
theorem exec_replayWriteCompletion (hf : s.port.inFlight = some ⟨.startup, x⟩)
    (hw : s.start.phase = .replay count entry record) (whole : record.length = 3) :
    exec .replayWriteCompletion s = .next
      (if s.start.part = .recovery then (s.landed x).replayedEntry count entry else s.landed x) := by
  show Host.Outcome.next s.replayWriteDone = _
  simp only [State.replayWriteDone, flightOf_eq hf, hw, if_neg (show ¬record.length < 3 by omega)]

end Completion

/-! ## The scan at a new position (R150, R153) -/

section Scan
variable {s : State}

/-- R150: the scan at BEGIN word 0 of its position. -/
def State.scanBegun (s : State) : State := { s with start := { s.start with phase := .scan 0 0 0 } }

theorem scanHere_begins (h : s.start.scan.expected ≠ 0) : s.scanHere = s.scanBegun := if_neg h

/-- R153: with no sequence number left to expect the scan ends where it stands. -/
theorem scanHere_ends (h : s.start.scan.expected = 0) : s.scanBegun.scanEnds s.scanHere := by
  have ends : s.scanHere = s.scanBegun.endScan := if_pos h
  rw [ends]
  exact endScan_spec _

end Scan

/-! ## The end of the anchor reads (R147 to R149) -/

section AnchorReads
variable {s : State} {a b words : List Word}

theorem anchorWordRead_next (h : words.length ≠ 128) :
    s.anchorWordRead words = { s with start := { s.start with phase := .anchors words } } := if_neg h

/-- R148: with PFW# low the anchor reads end in HALTED. -/
theorem anchorWordRead_halts (h : words.length = 128) (low : s.pins.pfwHigh = false) :
    s.anchorWordRead words = ({ s with start := { s.start with phase := .done } } : State).enterHalted :=
  (if_pos h).trans (if_neg (by simp [low]))

theorem anchorWordRead_chooses (h : words.length = 128) (high : s.pins.pfwHigh = true) :
    s.anchorWordRead words = s.chooseAnchor (words.take 64) (words.drop 64) :=
  (if_pos h).trans (if_pos high)

/-- R149: the records of the two copies that fail, and the report of a start-up without a copy. -/
theorem chooseAnchor_without {ra rb : Reason} (ha : copyFailure s.memSize a = some ra) (hb : copyFailure s.memSize b = some rb) :
    s.chooseAnchor a b =
      ((s.offerCopy .a (some ra)).offerCopy .b (some rb)).reportUnformatted.endStartup .unformatted := by
  have no_copy : newestCopy s.memSize a b = none := by simp only [newestCopy, ha, hb]
  simp only [State.chooseAnchor, ha, hb, no_copy]

/-- The words of one of the two copies read. -/
def Copy.ofReads (c : Copy) (a b : List Word) : List Word :=
  match c with
  | .a => a
  | .b => b

/-- R148: the copy taken is loaded, and the copies that fail are reported. -/
def State.withCopy (s : State) (c : Copy) (a b : List Word) : State :=
  ((s.offerCopy .a (copyFailure s.memSize a)).offerCopy .b (copyFailure s.memSize b)).loadCopy c (c.ofReads a b)
    (failures (copyFailure s.memSize a) (copyFailure s.memSize b))

/-- R148: with a newest valid copy the scan begins. -/
theorem chooseAnchor_with {c : Copy} (h : newestCopy s.memSize a b = some c) :
    s.chooseAnchor a b = (s.withCopy c a b).scanHere := by
  simp only [State.chooseAnchor, h]
  cases c <;> rfl

/-- R117: the copy taken is the newest valid one, copy A where neither generation is newer. -/
theorem newestCopy_eq_some {size : Nat} {c : Copy}
    (h : copyTaken (copyFailure size a) (copyFailure size b) (copyGeneration a) (copyGeneration b) c) :
    newestCopy size a b = some c := by
  have newer := newerGeneration_iff (copyGeneration b) (copyGeneration a)
  unfold newestCopy
  cases c with
  | a =>
    obtain ⟨valid, other⟩ := h
    cases hb : copyFailure size b with
    | none => simp [valid, newer, other.resolve_left (not_not.mpr hb)]
    | some r => simp [valid]
  | b =>
    obtain ⟨valid, other⟩ := h
    cases ha : copyFailure size a with
    | none => simp [valid, newer, other.resolve_left (not_not.mpr ha)]
    | some r => simp [valid]

/-- R148: with a valid copy at most one copy fails. -/
theorem failures_with_copy {fa fb : Option Reason} (h : fa = none ∨ fb = none) :
    failures fa fb = if fa = none ∧ fb = none then 0 else 1 := by
  rcases h with rfl | rfl
  · cases fb <;> rfl
  · cases fa <;> rfl

/-- R148: the management port with the record of the one copy that fails, where one is valid. -/
def State.failureOffered (s : State) (fa fb : Option Reason) : ManagementPort :=
  match fa, fb with
  | some r, _ => s.mgmt.offer ⟨.anchorCopyInvalid, some r, some 0, none, none, s.start.clock.millis⟩
  | none, some r => s.mgmt.offer ⟨.anchorCopyInvalid, some r, some 64, none, none, s.start.clock.millis⟩
  | none, none => s.mgmt

theorem offerCopy_offerCopy {fa fb : Option Reason} (h : fa = none ∨ fb = none) :
    (s.offerCopy .a fa).offerCopy .b fb = { s with mgmt := s.failureOffered fa fb } := by
  rcases h with rfl | rfl
  · cases fb <;> rfl
  · cases fa <;> rfl

theorem withCopy_eq {c : Copy} (h : copyFailure s.memSize a = none ∨ copyFailure s.memSize b = none) :
    s.withCopy c a b =
      ({ s with mgmt := s.failureOffered (copyFailure s.memSize a) (copyFailure s.memSize b) } : State).loadCopy c
        (c.ofReads a b) (if copyFailure s.memSize a = none ∧ copyFailure s.memSize b = none then 0 else 1) := by
  rw [State.withCopy, offerCopy_offerCopy h, failures_with_copy h]

end AnchorReads

/-- Settles O39: the next word, the halt, and the start-up without a copy. -/
theorem anchorReadsEndWithoutACopy : Obligations.AnchorReadsEndWithoutACopy := by
  intro s a l d words hf hw hp all t
  have read : exec .anchorReadCompletion s = .next (t.anchorWordRead all) := by
    rw [exec_anchorReadCompletion hf hw, if_pos hp, landed_read]
    rfl
  rw [read]
  refine ⟨fun more => ?_, fun last low => ?_, fun ra rb last high ha hb => ⟨_, rfl, ?_⟩⟩
  · rw [anchorWordRead_next more]
    rfl
  · rw [anchorWordRead_halts (s := t) last low]
    rfl
  · rw [anchorWordRead_chooses (s := t) last high, chooseAnchor_without (s := t) ha hb]
    exact endStartup_spec _ _

/-- Settles O40: the copy taken is loaded, and the scan begins there or ends at once. -/
theorem anchorReadsEndWithACopy : Obligations.AnchorReadsEndWithACopy := by
  intro s a l d words c hf hw hp hl high all failA failB generation taken copy image record invalid t
  let t₀ := s.portDone s.mem
  have last : all.length = 128 := by simp [all, hl]
  have newest : newestCopy s.memSize (all.take 64) (all.drop 64) = some c := newestCopy_eq_some taken
  have valid : failA = none ∨ failB = none := by
    cases c
    · exact .inl taken.1
    · exact .inr taken.1
  have loaded : (t₀.withCopy c (all.take 64) (all.drop 64)).scanBegun = t := by
    rw [withCopy_eq (s := t₀) valid]
    cases c <;> rfl
  have read : exec .anchorReadCompletion s = .next (t₀.withCopy c (all.take 64) (all.drop 64)).scanHere := by
    rw [exec_anchorReadCompletion hf hw, if_pos hp, landed_read]
    exact congrArg Host.Outcome.next
      ((anchorWordRead_chooses (s := t₀) last high).trans (chooseAnchor_with (s := t₀) newest))
  have expected : (t₀.withCopy c (all.take 64) (all.drop 64)).start.scan.expected = image.tailSeq := by cases c <;> rfl
  rw [read, ← loaded, ← expected]
  exact ⟨fun more => congrArg _ (scanHere_begins more), fun none_left => ⟨_, rfl, scanHere_ends none_left⟩⟩

/-! ## The words of the scan (R82, R150, R152) -/

section ScanWord
variable {s : State} {word count : Nat} {head w : Word}

/-- R82: the record an image word belongs to. -/
theorem imagePlace_cases (word count : Nat) :
    (word < 4 ∧ imagePlace word count = .begin word) ∨
    (4 ≤ word ∧ word < 4 + 3 * count ∧ imagePlace word count = .entry ((word - 4) % 3)) ∨
    (4 + 3 * count ≤ word ∧ imagePlace word count = .commit (word - 4 - 3 * count)) := by
  unfold imagePlace
  split_ifs with h1 h2
  · exact .inl ⟨h1, rfl⟩
  · exact .inr (.inl ⟨by omega, h2, rfl⟩)
  · exact .inr (.inr ⟨by omega, rfl⟩)

/-- R150: the words of BEGIN and of the ENTRY records are taken into the CRC, from FFFFh at BEGIN word 0. -/
theorem scanCrc_imagePlace (crc : Word) :
    scanCrc crc (imagePlace word count) w =
      if word = 0 then crcWord 0xFFFF w else if word < 4 ∨ word < 4 + 3 * count then crcWord crc w else crc := by
  rcases imagePlace_cases word count with ⟨h, e⟩ | ⟨h1, h2, e⟩ | ⟨h, e⟩ <;> rw [e]
  · simp only [scanCrc, h, true_or, if_true]
    rfl
  · rw [if_neg (by omega), if_pos (.inr h2)]
    rfl
  · rw [if_neg (by omega), if_neg (by omega)]
    rfl

/-- R150, R151: BEGIN word 3 gives the count, an ENTRY's first word is kept, and COMMIT word 3 completes the image. -/
theorem scanNext_imagePlace :
    scanNext (imagePlace word count) word count head w =
      if 4 ≤ word ∧ word = 7 + 3 * count then .replay count 0 []
      else .scan (word + 1) (if word = 3 then w.toNat else count)
        (if 4 ≤ word ∧ word < 4 + 3 * count ∧ (word - 4) % 3 = 0 then w else head) := by
  rcases imagePlace_cases word count with ⟨h, e⟩ | ⟨h1, h2, e⟩ | ⟨h, e⟩ <;> rw [e]
  · rw [if_neg (by omega), if_neg (show ¬(4 ≤ word ∧ _) by omega)]
    simp only [scanNext]
    split_ifs <;> rfl
  · rw [if_neg (by omega), if_neg (show word ≠ 3 by omega)]
    simp only [scanNext, h1, h2, true_and]
    split_ifs <;> rfl
  · rw [if_neg (show word ≠ 3 by omega), if_neg (show ¬(4 ≤ word ∧ word < _ ∧ _) by omega)]
    simp only [scanNext, show (word - 4 - 3 * count = 3) ↔ (4 ≤ word ∧ word = 7 + 3 * count) by omega]

/-- R150: a word that passes its test moves the scan on. -/
theorem scanWord_passes (h : s.scanPasses word count head w) :
    s.scanWord word count head w =
      { s.takenInScan (imagePlace word count) w with start :=
        { (s.takenInScan (imagePlace word count) w).start with phase := scanNext (imagePlace word count) word count head w } } :=
  if_pos ((scanTest_iff s word count head w).mpr h)

/-- R152: a word that fails its test stops the scan. -/
theorem scanWord_fails (h : ¬s.scanPasses word count head w) :
    s.scanWord word count head w = (s.takenInScan (imagePlace word count) w).stopScan (failureDiscards word) :=
  if_neg fun pass => h ((scanTest_iff s word count head w).mp pass)

/-- R152, R153: the scan stops, and from BEGIN word 3 on a partial image is discarded first. -/
theorem stopScan_spec (s : State) (word : Nat) :
    (if 3 ≤ word then s.discardPartial else s).scanEnds (s.stopScan (failureDiscards word)) := by
  unfold State.stopScan failureDiscards
  by_cases h : 3 ≤ word
  · simp only [h, decide_true, if_true]
    exact endScan_spec _
  · simp only [h, decide_false, if_false, Bool.false_eq_true]
    exact endScan_spec _

end ScanWord

/-! ## The claims of the scan and of the replay (R139, R150, R151) -/

/-- R139: in RECOVERY, the memory port idle for it, the start-up controller claims the next word of its work. -/
theorem exec_memoryClaim_startup {s : State} {x : Access} (hp : s.start.part = .recovery)
    (hw : s.port.waiting.startup = none) (hf : s.port.inFlight = none) (hx : s.startupClaim = some x) :
    exec (.memoryClaim .startup) s =
      .next { s with port := { s.port with waiting := { s.port.waiting with startup := some x } } } := by
  have free : ¬s.claims .startup := by
    rintro (waits | ⟨f, flies, _⟩)
    · exact waits hw
    · rw [hf] at flies
      cases flies
  rw [exec_memoryClaim, State.nextClaim, if_pos ((canClaim_iff s .startup).mpr free)]
  exact congrArg Host.Outcome.next (claimStartup_reads ((startupWorks_iff s).mpr (.inr hp)) hx)

/-- Settles O41: the claim, then the word that passes and the word that fails. -/
theorem scanTestsEachWord : Obligations.ScanTestsEachWord := by
  intro s word count head hp hw
  refine ⟨fun hc hf => exec_memoryClaim_startup hp hc hf (by rw [State.startupClaim, hw]; rfl), ?_⟩
  intro a l d hf w t ends crc first
  have read : exec .scanReadCompletion s = .next (t.scanWord word count head w) := by
    rw [exec_scanReadCompletion hf hw, if_pos hp, landed_read]
    rfl
  have crc_eq : scanCrc s.start.scan.crc (imagePlace word count) w = crc := scanCrc_imagePlace _
  rw [read]
  refine ⟨fun pass => ?_, fun fail => ?_⟩
  · rw [scanWord_passes (s := t) pass, scanNext_imagePlace, ← crc_eq]
    rfl
  · intro record r u
    refine ⟨_, rfl, ?_⟩
    have stopped : u = if 3 ≤ word then (t.takenInScan (imagePlace word count) w).discardPartial
        else t.takenInScan (imagePlace word count) w := by
      simp only [u, r, ← crc_eq]
      rfl
    rw [scanWord_fails (s := t) fail, stopped]
    exact stopScan_spec _ word

/-! ## Replay (R151, R153) -/

section Replay
variable {s : State} {count entry : Nat}

theorem replayedEntry_next (h : entry + 1 < count) :
    s.replayedEntry count entry = { s with start := { s.start with phase := .replay count (entry + 1) [] } } := if_pos h

theorem replayedEntry_last (h : count ≤ entry + 1) : s.replayedEntry count entry = (s.imageReplayed count).scanHere :=
  if_neg (Nat.not_lt.mpr h)

end Replay

/-- Settles O42: the claims, then the read that completes, then the write. -/
theorem replayWritesEachEntry : Obligations.ReplayWritesEachEntry := by
  intro s count entry record hm hp hw claimed place
  refine ⟨fun hc hf => ⟨fun short => ?_, ?_⟩, fun a l d hf short => ?_, fun a l d hf whole => ?_⟩
  · exact exec_memoryClaim_startup hp hc hf (by rw [State.startupClaim, hw]; exact if_pos short)
  · rintro h a d rfl
    exact exec_memoryClaim_startup hp hc hf (by rw [State.startupClaim, hw]; rfl)
  · rw [exec_replayReadCompletion hf hw short, if_pos hp, landed_read]
    rfl
  · refine ⟨_, writeLanes_stored hm a l d, ?_⟩
    rw [exec_replayWriteCompletion hf hw whole, if_pos hp, landed_write]
    refine ⟨fun more => congrArg _ (replayedEntry_next more), fun last => ?_⟩
    rw [replayedEntry_last last]
    let u := (s.portDone (writeLanes s.mem a l d)).imageReplayed count
    exact ⟨fun more => congrArg _ (scanHere_begins (s := u) more),
      fun none_left => ⟨_, rfl, scanHere_ends (s := u) none_left⟩⟩

/-! ## The closing write (R154) -/

/-- R154: in RECOVERY the end of a write that carries and covers nothing, the slot empty, ends the start-up. -/
theorem completeWrite_closing {s : State} {w : AnchorWrite} (hp : s.start.part = .recovery) (hcar : w.carried = none)
    (h0 : w.covers0 = false) (h1 : w.covers1 = false) (hs : s.host.slot = none) :
    s.completeWrite w = (s.writeDone w).endStartup .run := by
  have alone : ((s.writeDone w).retireCovered w).carriedDone w = s.writeDone w := by
    simp [State.retireCovered, State.carriedDone, hcar, h0, h1]
  have unserved : (s.writeDone w).openWaiting.examineHold = s.writeDone w :=
    openWaiting_examineHold_none (.inl fun e => by cases hp.symm.trans e) fun _ e => nomatch hs.symm.trans e
  rw [State.completeWrite, alone, unserved]
  exact if_pos hp

/-- Settles O43. -/
theorem closingWriteEntersRun : Obligations.ClosingWriteEntersRun := by
  intro s a w wr hm hp hf hw hn hcar h0 h1 hs
  let t := s.portDone (writeLanes s.mem a ⟨true, true⟩ w)
  have closes : exec .anchorWordCompletion s = .next ((t.writeDone wr).endStartup .run) := by
    rw [exec_anchorWordCompletion hf hw, landed_write, if_pos (anchorWorks_of_part (.inr (.inr hp))),
      anchorWordDone_completes hn, completeWrite_closing (s := t) hp hcar h0 h1 hs]
  exact ⟨_, _, writeLanes_stored hm a _ w, closes, endStartup_spec _ _⟩

end Sys2Proof.Machine
end

section
/-! Resets (R141, R144, R145, R179), the fall of PFW# (R140, R157) and the reset state; O36, O37 and O58. -/

namespace Sys2Proof.Machine

/-! ## Resets (R144, R145) -/

/-- R144, R145: the levels of the input pins after the reset that a command takes. -/
structure State.PinsAfter (s : State) (c : Instr) (cause : ResetCause) (straps : Straps) (p : Pins) : Prop where
  straps  : p.straps = straps
  host    : p.host = s.pins.host
  powered : ∀ q, c = .powerOn q → p.txnHigh = q.txnHigh ∧ p.rstHigh = q.rstHigh ∧ p.pfwHigh = q.pfwHigh
  kept    : cause ≠ .powerOn → p.txnHigh = s.pins.txnHigh ∧
    p.rstHigh = (if cause = .resetPin then false else s.pins.rstHigh) ∧
    p.pfwHigh = (if cause = .powerResume then true else s.pins.pfwHigh)

/-- R144, R145: each of the four resets sets every block alike; the levels of the input pins alone differ. -/
theorem exec_reset {s : State} {c : Instr} {cause : ResetCause} {straps : Straps} (h : s.resetGiven c cause straps) :
    ∃ p, exec c s = .next { s.resetBy cause straps with pins := p } ∧ s.PinsAfter c cause straps p := by
  cases c with
  | powerOn q =>
    obtain ⟨rfl, rfl⟩ := h
    exact ⟨_, rfl, rfl, rfl, fun q e => by cases e; exact ⟨rfl, rfl, rfl⟩, fun e => absurd rfl e⟩
  | resetPin x =>
    obtain ⟨rfl, rfl⟩ := h
    exact ⟨_, rfl, rfl, rfl, fun _ e => (nomatch e), fun _ => ⟨rfl, rfl, rfl⟩⟩
  | powerResume x =>
    obtain ⟨rfl, rfl, hp⟩ := h
    exact ⟨_, congrArg Host.Outcome.next (if_pos hp), rfl, rfl, fun _ e => (nomatch e), fun _ => ⟨rfl, rfl, rfl⟩⟩
  | softReset x =>
    obtain ⟨rfl, rfl, hd, hw⟩ := h
    exact ⟨_, congrArg Host.Outcome.next (takeDue_taken hd hw (named := (· == 0x07)) rfl _), rfl, rfl,
      fun _ e => (nomatch e), fun _ => ⟨rfl, rfl, rfl⟩⟩
  | _ => exact h.elim

/-- R145, R179: the management port after a reset, the fault queue, the dropped count and the counters apart. -/
theorem afterReset_eq (m : ManagementPort) (cause : ResetCause) (adr : BitVec 2) :
    ∃ queue dropped counters, m.afterReset cause adr = .reset adr queue dropped counters ∧
      (cause = .powerOn → queue = [] ∧ dropped = 0 ∧ counters = ⟨0, 0, 0⟩) ∧
      (cause ≠ .powerOn → queue = m.queue ∧ dropped = m.dropped ∧ counters = m.counters) := by
  by_cases h : cause = .powerOn
  · exact ⟨_, _, _, if_pos h, fun _ => ⟨rfl, rfl, rfl⟩, (absurd h ·)⟩
  · exact ⟨_, _, _, if_neg h, (absurd · h), fun _ => ⟨rfl, rfl, rfl⟩⟩

/-- Settles O36. -/
theorem everyResetSetsEveryBlock : Obligations.EveryResetSetsEveryBlock := by
  intro s c cause straps hm h resets noGuard
  obtain ⟨p, reset, pins⟩ := exec_reset h
  obtain ⟨queue, dropped, counters, mgmt, emptied, kept⟩ := afterReset_eq s.mgmt cause straps.adr
  refine ⟨_, reset, memoryAtReset_spec hm cause, rfl, rfl, rfl, rfl, rfl, rfl, rfl, rfl, rfl, ?_⟩
  have port : (s.resetBy cause straps).mgmt = .reset straps.adr queue dropped counters := mgmt
  simp only [port]
  exact ⟨rfl, rfl, rfl, rfl, rfl, rfl, rfl, rfl, rfl, rfl, rfl, emptied, kept, pins.straps, pins.host, rfl, pins.powered,
    pins.kept, rfl, rfl, rfl, rfl, rfl⟩

/-! ## The fall of PFW# (R140, R157) -/

section Halted
variable {s : State}

/-- R157: in these part states a fall of PFW# halts the part. -/
theorem halts_of_part (h : s.start.part = .recovery ∨ s.controllerWorks) : s.start.part.halts = true := by
  rcases h with h | h | h | h <;> rw [h] <;> rfl

/-- R140: with the halt flag set no grant is made. -/
theorem exec_grant_halted (h : s.port.halt = true) : exec .grant s = .next s := by
  have no_grant : s.grantable = none := if_pos (by simp [h])
  exact execGrant_none no_grant

/-- R97, R110, R120, R157: in HALTED no claimant makes a claim. -/
theorem exec_memoryClaim_halted (hp : s.start.part = .halted) (who : Claimant) : exec (.memoryClaim who) s = .next s := by
  have idle : s.nextClaim who = s := by
    unfold State.nextClaim
    split
    · cases who with
      | host => exact if_neg fun ready => not_controllerWorks_of_halted hp ((cycleReady_iff s).mp ready).1.1
      | anchor => exact claimAnchor_idle (.inr (by rw [hp]; rfl))
      | log => exact claimLog_idle (.inr (by rw [hp]; decide))
      | apply => rfl
      | startup => exact claimStartup_idle (.inl (by simp [startupWorks_iff, hp]))
    · rfl
  rw [exec_memoryClaim, idle]

/-! ### In HALTED no engine takes, chooses or starts anything (R97, R110, R120, R130) -/

theorem exec_logWriterTake_halted (hp : s.start.part = .halted) : exec .logWriterTake s = .next s :=
  congrArg Host.Outcome.next (if_neg fun ⟨runs, _⟩ => nomatch hp.symm.trans runs)

theorem exec_applyTake_halted (hp : s.start.part = .halted) : exec .applyTake s = .next s :=
  congrArg Host.Outcome.next (if_neg fun ⟨runs, _⟩ => nomatch hp.symm.trans runs)

theorem exec_applyChoice_halted (hp : s.start.part = .halted) : exec .applyChoice s = .next s := by
  show Host.Outcome.next s.applyChoice = _
  unfold State.applyChoice
  split
  · rw [if_neg fun ⟨runs, _⟩ => nomatch hp.symm.trans runs]
  · rfl

theorem exec_pendingWriteStart_halted (hp : s.start.part = .halted) : exec .pendingWriteStart s = .next s :=
  congrArg Host.Outcome.next (if_neg fun ⟨works, _⟩ => by rw [hp] at works; cases works)

theorem exec_formatSecondWriteStart_halted (hp : s.start.part = .halted) : exec .formatSecondWriteStart s = .next s := by
  show Host.Outcome.next s.secondStart = _
  unfold State.secondStart
  split
  · rw [if_neg fun ⟨formats, _⟩ => nomatch hp.symm.trans formats]
  · rfl

end Halted

/-- Settles O37: the fall that halts, the fall that is no event, and HALTED engine by engine. -/
theorem pfwFallHalts : Obligations.PfwFallHalts := by
  intro s
  refine ⟨fun h => ?_, fun h => ?_, fun hp => ?_⟩
  · exact ⟨congrArg Host.Outcome.next (if_pos (halts_of_part h)), fun n => advance_halted n rfl, exec_grant_halted rfl⟩
  · have stays : ¬s.start.part.halts = true := by rcases h with h | h <;> rw [h] <;> decide
    exact congrArg Host.Outcome.next (if_neg stays)
  · have not_startup : s.start.part ≠ .startup := by rw [hp]; decide
    have not_recovery : s.start.part ≠ .recovery := by rw [hp]; decide
    refine ⟨exec_memoryClaim_halted hp, exec_logWriterTake_halted hp, exec_applyTake_halted hp, exec_applyChoice_halted hp,
      exec_pendingWriteStart_halted hp, exec_formatSecondWriteStart_halted hp, fun a l d hf => ⟨?_, ?_, ?_⟩, ?_⟩
    · intro words hw
      rw [exec_anchorReadCompletion hf hw, if_neg not_startup, landed_read]
    · intro word count head hw
      rw [exec_scanReadCompletion hf hw, if_neg not_recovery, landed_read]
    · intro count entry record hw short
      rw [exec_replayReadCompletion hf hw short, if_neg not_recovery, landed_read]
    · intro a l d count entry record hm hf hw whole
      refine ⟨_, writeLanes_stored hm a l d, ?_⟩
      rw [exec_replayWriteCompletion hf hw whole, if_neg not_recovery, landed_write]

/-! ## The reset state -/

/-- R15, R138, R145, R167, R175: the numbers of the reset state. -/
theorem reset_inRange : State.reset.inRange where
  queued     := by decide
  dropped    := by decide
  refused    := by decide
  openMillis := by decide
  holdMicros := by decide
  pulse      := fun _ e => nomatch e
  burstLow   := by decide
  burstHigh  := by decide
  burst      := by decide
  resets     := by decide
  replayed   := by decide
  invalid    := by decide
  halt       := by decide

/-- Settles O58: the reset state differs from a POWER_ON reset of itself in the counter `torn` alone, which no invariant reads. -/
theorem resetMeetsTheInvariants : Obligations.ResetMeetsTheInvariants := by
  obtain ⟨bounded, halt⟩ := (inRange_iff _).mp reset_inRange
  exact ⟨reset_memory_wf, State.resetBy_protocol State.reset .powerOn ⟨0, 0⟩, bounded, halt,
    resetBy_claimsSound State.reset .powerOn ⟨0, 0⟩⟩

end Sys2Proof.Machine
end

section
/-! Transfers of the management port (R161 to R165): where one begins and ends, and what becomes of its bytes. -/

namespace Sys2Proof.Machine

/-! ## The end of a transfer (R161, R171) -/

section Ends
variable {s : State}

/-- R171: the command byte has been acknowledged in the transfer in progress. -/
def State.commandInTransfer (s : State) : Bool :=
  match s.mgmt.transfer with
  | some (.write w) => w.commanded
  | some (.read _) => false
  | none => false

theorem endTransfer_eq (s : State) : s.endTransfer = s.transferEnded s.commandInTransfer := by
  unfold State.endTransfer State.commandInTransfer State.transferEnded
  cases s.mgmt.transfer with
  | none => rfl
  | some x =>
    cases x with
    | read left => rfl
    | write w =>
      by_cases arms : w.commanded = true ∧ s.start.part ≠ .halted
      · simp only [if_pos arms]
        exact if_pos (by simpa using arms)
      · simp only [if_neg arms]
        exact if_neg (by simpa using arms)

theorem endTransfer_write {w : WriteTransfer} (h : s.mgmt.transfer = some (.write w)) :
    s.endTransfer = s.transferEnded w.commanded := by
  rw [endTransfer_eq, State.commandInTransfer, h]

theorem endTransfer_read {left : List Byte} (h : s.mgmt.transfer = some (.read left)) : s.endTransfer = s.transferEnded false := by
  rw [endTransfer_eq, State.commandInTransfer, h]

/-- With no transfer in progress nothing ends. -/
theorem transferEnded_idle (h : s.mgmt.transfer = none) : s.transferEnded false = s := by
  have same : s.transferEnded false = { s with mgmt := { s.mgmt with transfer := none } } := rfl
  rw [same, ← h]

/-- R171: the command of a transfer that ends is due, the part not HALTED. -/
theorem transferEnded_due (hp : s.start.part ≠ .halted) :
    s.transferEnded true =
      { s with mgmt := { s.mgmt with transfer := none, command := { s.mgmt.command with due := some s.mgmt.command.code } } } := by
  simp [State.transferEnded, hp]

theorem endTransfer_idle (h : s.mgmt.transfer = none) : s.endTransfer = s := by
  rw [endTransfer_eq, State.commandInTransfer, h]
  exact transferEnded_idle h

/-- R161: the end of a transfer leaves the address the port answers at. -/
theorem endTransfer_targetAddress (s : State) : s.endTransfer.targetAddress = s.targetAddress := by
  rw [endTransfer_eq]
  rfl

/-- R161: a STOP ends the transfer. -/
theorem closeStretch_write_stop (s : State) (w : WriteTransfer) :
    s.closeStretch (.write w) true = s.transferEnded w.commanded :=
  endTransfer_write (s := s.setTransfer (some (.write w))) rfl

theorem closeStretch_read_stop (s : State) (left : List Byte) : s.closeStretch (.read left) true = s.transferEnded false :=
  endTransfer_read (s := s.setTransfer (some (.read left))) rfl

end Ends

/-! ## The address byte (R161) -/

section Address
variable {s : State} {target : BitVec 7}

theorem writeTransfer_addressed (ha : s.addressed target) (stop : Bool) (first bytes : List Byte) :
    s.writeTransfer ⟨some target, stop⟩ first bytes = s.endTransfer.goOnWriting .begun [true] (first ++ bytes) stop :=
  if_pos (((addressed_iff s target).mp ha).trans (endTransfer_targetAddress s).symm)

theorem writeTransfer_apart (ha : ¬s.addressed target) (stop : Bool) (first bytes : List Byte) :
    s.writeTransfer ⟨some target, stop⟩ first bytes = s.endTransfer :=
  if_neg fun e => ha ((addressed_iff s target).mpr (e.trans (endTransfer_targetAddress s)))

/-- R161: bytes that go on with no write transfer of the port. -/
theorem writeTransfer_unbegun (h : ∀ w, s.mgmt.transfer ≠ some (.write w)) (stop : Bool) (first bytes : List Byte) :
    s.writeTransfer ⟨none, stop⟩ first bytes = s.refuseStretch bytes.length stop := by
  unfold State.writeTransfer
  cases hx : s.mgmt.transfer with
  | none => rfl
  | some x =>
    cases x with
    | write w => exact absurd hx (h w)
    | read left => rfl

theorem readTransfer_unbegun (h : ∀ left, s.mgmt.transfer ≠ some (.read left)) (stop : Bool) (count : Nat) :
    s.readTransfer ⟨none, stop⟩ count = s.sendNothing stop := by
  unfold State.readTransfer
  cases hx : s.mgmt.transfer with
  | none => rfl
  | some x =>
    cases x with
    | write w => rfl
    | read left => exact absurd hx (h left)

theorem readTransfer_addressed (ha : s.addressed target) (stop : Bool) (count : Nat) :
    s.readTransfer ⟨some target, stop⟩ count =
      s.endTransfer.valuesTaken.sendBytes s.endTransfer.selectedBytes count stop :=
  if_pos (((addressed_iff s target).mp ha).trans (endTransfer_targetAddress s).symm)

theorem readTransfer_apart (ha : ¬s.addressed target) (stop : Bool) (count : Nat) :
    s.readTransfer ⟨some target, stop⟩ count = s.endTransfer :=
  if_neg fun e => ha ((addressed_iff s target).mpr (e.trans (endTransfer_targetAddress s)))

end Address

/-! ## Bytes acknowledged and bytes refused (R162, R164) -/

/-- R162: the port acknowledges every one of the bytes, and has then this transfer and this state. -/
def State.takesAll (s : State) (w : WriteTransfer) (bytes : List Byte) (v : WriteTransfer) (t : State) : Prop :=
  takeBytes bytes w s = (List.replicate bytes.length true, v, t)

section Bytes
variable {s t r : State} {w v u : WriteTransfer} {b : Byte} {bytes rest : List Byte}

theorem takeBytes_append (xs ys : List Byte) (w : WriteTransfer) (s : State) :
    takeBytes (xs ++ ys) w s =
      let (acks, v, t) := takeBytes xs w s
      let (more, u, r) := takeBytes ys v t
      (acks ++ more, u, r) := by
  induction xs generalizing w s with
  | nil => rfl
  | cons b xs ih => simp only [List.cons_append, takeBytes, ih]

theorem takesAll_nil (w : WriteTransfer) (s : State) : s.takesAll w [] w s := rfl

theorem takesAll_one (h : s.takeByte w b = (true, v, t)) : s.takesAll w [b] v t := by
  simp [State.takesAll, takeBytes, h]

theorem State.takesAll.append (h : s.takesAll w bytes v t) (h2 : t.takesAll v rest u r) : s.takesAll w (bytes ++ rest) u r := by
  unfold State.takesAll at *
  simp only [takeBytes_append, h, h2, List.replicate_append_replicate, List.length_append]

/-- R164: after a refused byte every byte is refused. -/
theorem takeBytes_refused (h : w.refused = true) : takeBytes bytes w s = (List.replicate bytes.length false, w, s) := by
  induction bytes with
  | nil => rfl
  | cons b bytes ih => simp [takeBytes, State.takeByte, h, ih, List.replicate_succ]

/-- R164: a byte refused after bytes acknowledged, and every byte after it. -/
theorem State.takesAll.refuses (h : s.takesAll w bytes v t) (hr : t.takeByte v b = (false, v.refuse, t)) :
    takeBytes (bytes ++ b :: rest) w s =
      (List.replicate bytes.length true ++ List.replicate (rest.length + 1) false, v.refuse, t) := by
  unfold State.takesAll at h
  simp only [takeBytes_append, h, takeBytes, hr, takeBytes_refused (w := v.refuse) rfl, List.replicate_succ]

/-- R162, R164: the item number. -/
theorem takesAll_item (s : State) (h : b.toNat ≤ 13) :
    s.takesAll .begun [b] ⟨some b.toNat, 0, [], false, false⟩ (s.setPointer b) :=
  takesAll_one (if_neg (Nat.not_lt.mpr h))

theorem takeByte_item_refused (s : State) (h : 13 < b.toNat) :
    s.takeByte .begun b = (false, WriteTransfer.begun.refuse, s) := if_pos h

section Data
variable {item off : Nat} {held held' : List Byte} {c : Bool}

/-- R164: a data byte that is refused. -/
theorem takeByte_refused (h : s.byteRefused item off b = true) :
    s.takeByte ⟨some item, off, held, false, c⟩ b = (false, ⟨some item, off, [], true, c⟩, s) := if_pos h

/-- R162, R165: a data byte that is acknowledged, not the command byte. -/
theorem takesAll_data (h : s.byteRefused item off b = false) (ha : s.acceptByte item off held b = (held', t))
    (hc : item ≠ 0x0C ∨ off ≠ 0) :
    s.takesAll ⟨some item, off, held, false, c⟩ [b] ⟨some item, off + 1, held', false, c⟩ t := by
  have no_command : (item == 0x0C && off == 0) = false := by
    rcases hc with hc | hc <;> simp [hc]
  refine takesAll_one ?_
  simp only [State.takeByte, h, ha, no_command, Bool.or_false]
  rfl

/-- R162, R165: a byte at this offset is acknowledged and changes nothing yet: its field is not complete, or the item has ended. -/
def State.passesOver (s : State) (item off : Nat) : Prop :=
  ∀ held b, s.byteRefused item off b = false ∧ (s.acceptByte item off held b).2 = s

theorem takesAll_passing (bytes : List Byte) (hp : 0 < off) (h : ∀ k < bytes.length, s.passesOver item (off + k))
    (held : List Byte) (c : Bool) :
    ∃ held', s.takesAll ⟨some item, off, held, false, c⟩ bytes ⟨some item, off + bytes.length, held', false, c⟩ s := by
  induction bytes generalizing off held with
  | nil => exact ⟨held, takesAll_nil _ _⟩
  | cons b bytes ih =>
    obtain ⟨accepted, unchanged⟩ := h 0 (Nat.zero_lt_succ _) held b
    have first : s.takesAll ⟨some item, off, held, false, c⟩ [b]
        ⟨some item, off + 1, (s.acceptByte item off held b).1, false, c⟩ s :=
      takesAll_data accepted (Prod.ext rfl unchanged) (.inr (Nat.pos_iff_ne_zero.mp hp))
    obtain ⟨held', later⟩ := ih (off := off + 1) (Nat.succ_pos _)
      (fun k hk => by rw [Nat.add_right_comm, Nat.add_assoc]; exact h (k + 1) (Nat.succ_lt_succ hk)) _
    rw [Nat.add_right_comm, Nat.add_assoc] at later
    exact ⟨held', first.append later⟩

end Data

/-! ## Whole transfers -/

variable {target : BitVec 7}

theorem exec_registerWrite_whole (ha : s.addressed target) (ht : s.mgmt.transfer = none) (bytes : List Byte) :
    exec (.registerWrite ⟨some target, true⟩ bytes) s =
      let (acks, v, t) := takeBytes bytes .begun s
      .next ((t.setAcks (true :: acks)).transferEnded v.commanded) := by
  show Host.Outcome.next (s.writeTransfer _ _ _) = _
  rw [writeTransfer_addressed ha, endTransfer_idle ht]
  exact congrArg Host.Outcome.next (closeStretch_write_stop _ _)

/-- R162: a whole transfer, each byte of it acknowledged. -/
theorem State.takesAll.written (h : s.takesAll .begun bytes v t) (ha : s.addressed target) (ht : s.mgmt.transfer = none) :
    exec (.registerWrite ⟨some target, true⟩ bytes) s =
      .next ((t.setAcks (List.replicate (bytes.length + 1) true)).transferEnded v.commanded) := by
  unfold State.takesAll at h
  rw [exec_registerWrite_whole ha ht, h]
  rfl

/-- R164: a whole transfer whose bytes are refused from one on. -/
theorem State.takesAll.written_refused (h : s.takesAll .begun bytes v t) (hr : t.takeByte v b = (false, v.refuse, t))
    (ha : s.addressed target) (ht : s.mgmt.transfer = none) (rest : List Byte) :
    exec (.registerWrite ⟨some target, true⟩ (bytes ++ b :: rest)) s =
      .next ((t.setAcks (List.replicate (bytes.length + 1) true ++ List.replicate (rest.length + 1) false)).transferEnded
        v.commanded) := by
  rw [exec_registerWrite_whole ha ht, h.refuses hr]
  rfl

/-- A whole transfer to an item other than COMMAND leaves nothing due. -/
theorem State.takesAll.stored (h : s.takesAll .begun bytes v t) (ha : s.addressed target) (ht : s.mgmt.transfer = none)
    (hc : v.commanded = false) (hi : t.mgmt.transfer = none) :
    exec (.registerWrite ⟨some target, true⟩ bytes) s = .next (t.setAcks (List.replicate (bytes.length + 1) true)) := by
  rw [h.written ha ht, hc]
  exact congrArg Host.Outcome.next (transferEnded_idle (s := t.setAcks _) hi)

theorem State.takesAll.stored_refused (h : s.takesAll .begun bytes v t) (hr : t.takeByte v b = (false, v.refuse, t))
    (ha : s.addressed target) (ht : s.mgmt.transfer = none) (hc : v.commanded = false) (hi : t.mgmt.transfer = none)
    (rest : List Byte) :
    exec (.registerWrite ⟨some target, true⟩ (bytes ++ b :: rest)) s =
      .next (t.setAcks (List.replicate (bytes.length + 1) true ++ List.replicate (rest.length + 1) false)) := by
  rw [h.written_refused hr ha ht, hc]
  exact congrArg Host.Outcome.next (transferEnded_idle (s := t.setAcks _) hi)

end Bytes

/-! ## Fields of several bytes (R165) -/

theorem toNat_append_byte {n : Nat} (x : BitVec n) (b : Byte) : (x ++ b).toNat = x.toNat * 256 + b.toNat := by
  rw [BitVec.toNat_append, ← Nat.shiftLeft_add_eq_or_of_lt b.isLt, Nat.shiftLeft_eq]

theorem fromBytes_two (x y : Byte) : BitVec.ofNat 16 (fromBytes [x, y]) = x ++ y := by
  apply BitVec.eq_of_toNat_eq
  have := x.isLt
  have := y.isLt
  simp only [fromBytes, List.foldl, BitVec.toNat_ofNat, toNat_append_byte]
  omega

theorem fromBytes_three (x y z : Byte) : BitVec.ofNat 20 (fromBytes [x, y, z]) = (x ++ y ++ z).setWidth 20 := by
  apply BitVec.eq_of_toNat_eq
  simp only [fromBytes, List.foldl, BitVec.toNat_ofNat, BitVec.toNat_setWidth, toNat_append_byte]
  omega

theorem fromBytes_four (x y z a : Byte) : BitVec.ofNat 32 (fromBytes [x, y, z, a]) = x ++ y ++ z ++ a := by
  apply BitVec.eq_of_toNat_eq
  have := x.isLt
  have := y.isLt
  have := z.isLt
  have := a.isLt
  simp only [fromBytes, List.foldl, BitVec.toNat_ofNat, toNat_append_byte]
  omega

end Sys2Proof.Machine
end

section
/-! Write transfers to the registers (R161, R162, R164, R165, R168 to R171): each field of GUARD_EDIT, GUARD_LIVE, BANK_VIEW and
COMMAND byte by byte; O44 and O45. -/

namespace Sys2Proof.Machine

/-! ## GUARD_EDIT (R168) -/

/-- R168: the item pointer is at GUARD_EDIT, and the entry selected is the one given. -/
def State.editing (s : State) (i : Fin 8) (g : GuardEntry) : State :=
  { s with mgmt := { s.mgmt with pointer := 0x06, editSel := i, edit := s.mgmt.edit.set i g } }

/-- A write transfer to an item, none of its bytes refused, its next byte at an offset at which a field begins. -/
def WriteTransfer.fieldAt (item off : Nat) : WriteTransfer := ⟨some item, off, [], false, false⟩

section Edit
variable {s : State} {i : Fin 8} {g : GuardEntry}

theorem editing_editEntry : (s.editing i g).editEntry = g := Vector.getElem_set_self _

theorem editing_setEdit (g' : GuardEntry) : (s.editing i g).setEdit g' = s.editing i g' := by
  simp [State.setEdit, State.editing]

theorem takesAll_edit_select {sel : Byte} (h : sel.toNat < 8) :
    s.takesAll .begun [0x06, sel] (.fieldAt 0x06 1)
      (s.editing (Fin.ofNat 8 sel.toNat) s.mgmt.edit[Fin.ofNat 8 sel.toNat]) := by
  have below : ¬7 < sel.toNat := by omega
  refine (takesAll_item s (b := 0x06) (by decide)).append (takesAll_data ?_ ?_ (.inl (by decide)))
  · simp [State.byteRefused, editByteRefused, below]
  · simp [State.acceptByte, State.editByte, State.editing, State.setPointer]

theorem takesAll_edit_first (a2 a1 a0 : Byte) :
    (s.editing i g).takesAll (.fieldAt 0x06 1) [a2, a1, a0] (.fieldAt 0x06 4)
      (s.editing i { g with first := (a2 ++ a1 ++ a0).setWidth 20 }) := by
  have taken : (s.editing i g).takesAll (.fieldAt 0x06 1) [a2, a1, a0] (.fieldAt 0x06 4)
      ((s.editing i g).setEdit { (s.editing i g).editEntry with first := BitVec.ofNat 20 (fromBytes [a2, a1, a0]) }) := rfl
  rwa [editing_setEdit, editing_editEntry, fromBytes_three] at taken

theorem takesAll_edit_last (b2 b1 b0 : Byte) :
    (s.editing i g).takesAll (.fieldAt 0x06 4) [b2, b1, b0] (.fieldAt 0x06 7)
      (s.editing i { g with last := (b2 ++ b1 ++ b0).setWidth 20 }) := by
  have taken : (s.editing i g).takesAll (.fieldAt 0x06 4) [b2, b1, b0] (.fieldAt 0x06 7)
      ((s.editing i g).setEdit { (s.editing i g).editEntry with last := BitVec.ofNat 20 (fromBytes [b2, b1, b0]) }) := rfl
  rwa [editing_setEdit, editing_editEntry, fromBytes_three] at taken

theorem takesAll_edit_policy {p : Byte} (h : p.toNat ≤ 2) :
    (s.editing i g).takesAll (.fieldAt 0x06 7) [p] (.fieldAt 0x06 8) (s.editing i { g with policy := policyOfCode p }) := by
  refine takesAll_data ?_ ?_ (.inl (by decide))
  · simp [State.byteRefused, editByteRefused, h]
  · simp [State.acceptByte, State.editByte, editing_setEdit, editing_editEntry]

theorem takesAll_edit_action {r : Byte} (h : r.toNat ≤ 1) :
    (s.editing i g).takesAll (.fieldAt 0x06 8) [r] (.fieldAt 0x06 9) (s.editing i { g with action := actionOfCode r }) := by
  refine takesAll_data ?_ ?_ (.inl (by decide))
  · simp [State.byteRefused, editByteRefused, h]
  · simp [State.acceptByte, State.editByte, editing_setEdit, editing_editEntry]

/-- R165: the first two bytes of an address, and the bytes past the ninth. -/
theorem passesOver_edit {off : Nat} (h : off = 1 ∨ off = 2 ∨ off = 4 ∨ off = 5 ∨ 9 ≤ off) : s.passesOver 0x06 off := by
  intro held b
  rcases h with rfl | rfl | rfl | rfl | h
  · exact ⟨rfl, rfl⟩
  · exact ⟨rfl, rfl⟩
  · exact ⟨rfl, rfl⟩
  · exact ⟨rfl, rfl⟩
  · obtain ⟨k, rfl⟩ := Nat.exists_eq_add_of_le' h
    exact ⟨by simp [State.byteRefused, editByteRefused], rfl⟩

end Edit

/-! ## GUARD_LIVE and BANK_VIEW (R169, R170) -/

theorem takesAll_live_select (s : State) {sel : Byte} (h : sel.toNat < 8) :
    s.takesAll .begun [0x07, sel] (.fieldAt 0x07 1)
      { s with mgmt := { s.mgmt with pointer := 0x07, liveSel := Fin.ofNat 8 sel.toNat } } := by
  have below : ¬7 < sel.toNat := by omega
  exact (takesAll_item s (b := 0x07) (by decide)).append
    (takesAll_data (by simp [State.byteRefused, liveByteRefused, below]) rfl (.inl (by decide)))

/-- R170: the bank a select byte names. -/
def bankOfCode (b : Byte) : BankId := if b = 0 then .b0 else .b1

theorem takesAll_view_bank (s : State) {sel : Byte} (h : sel.toNat < 2) :
    s.takesAll .begun [0x0A, sel] (.fieldAt 0x0A 1)
      { s with mgmt := { s.mgmt with pointer := 0x0A, bankSel := bankOfCode sel } } := by
  have below : ¬1 < sel.toNat := by omega
  exact (takesAll_item s (b := 0x0A) (by decide)).append
    (takesAll_data (by simp [State.byteRefused, viewByteRefused, below]) rfl (.inl (by decide)))

theorem takesAll_view_entry (s : State) (index : Byte) :
    s.takesAll (.fieldAt 0x0A 1) [index] (.fieldAt 0x0A 2) { s with mgmt := { s.mgmt with entrySel := index } } := rfl

/-! ## What is refused (R164) -/

/-- R164, R166: the first data byte of an item that has none to write, or a select out of its range. -/
theorem byteRefused_of_firstByteRefused {s : State} {item b : Byte} (h : firstByteRefused item b) :
    s.byteRefused item.toNat 0 b = true := by
  rcases h with read_only | ⟨select, above⟩ | ⟨bank, above⟩
  · simp only [List.mem_cons, List.not_mem_nil, or_false] at read_only
    rcases read_only with e | e | e | e | e | e | e | e | e <;> rw [e] <;> rfl
  · simp only [List.mem_cons, List.not_mem_nil, or_false] at select
    rcases select with e | e <;> rw [e]
    · simp [State.byteRefused, editByteRefused, above]
    · simp [State.byteRefused, liveByteRefused, above]
  · rw [bank]
    simp [State.byteRefused, viewByteRefused, above]

theorem item_le_of_firstByteRefused {item b : Byte} (h : firstByteRefused item b) : item.toNat ≤ 13 := by
  simp only [firstByteRefused, List.mem_cons, List.not_mem_nil, or_false] at h
  omega

/-- Settles O44. -/
theorem transferIsAddressedAndChecked : Obligations.TransferIsAddressedAndChecked := by
  intro s target ht written acked
  refine ⟨fun stop bytes count apart => ?_, fun stop bytes count => ?_, fun item rest ha => ⟨fun high => ?_, fun low => ?_,
    fun b refused => ?_⟩, fun sel b rest ha hsel => ?_, fun sel index b rest ha hsel => ?_,
    fun sel a2 a1 a0 b2 b1 b0 p r rest ha hsel => ?_⟩
  · have nothing : s.endTransfer = s := endTransfer_idle ht
    exact ⟨congrArg Host.Outcome.next ((writeTransfer_apart apart _ _ _).trans nothing),
      congrArg Host.Outcome.next ((writeTransfer_apart apart _ _ _).trans nothing),
      congrArg Host.Outcome.next ((readTransfer_apart apart _ _).trans nothing)⟩
  · have refused (n : Nat) : s.refuseStretch n stop = s.setAcks (List.replicate n false) := by
      cases stop with
      | false => rfl
      | true => exact endTransfer_idle (s := s.setAcks _) ht
    have silent : s.sendNothing stop = { s with mgmt := { s.mgmt with readData := [] } } := by
      cases stop with
      | false => rfl
      | true => exact endTransfer_idle (s := { s with mgmt := { s.mgmt with readData := [] } }) ht
    have writes (first : List Byte) : s.writeTransfer ⟨none, stop⟩ first bytes = s.refuseStretch bytes.length stop :=
      writeTransfer_unbegun (fun w e => nomatch ht.symm.trans e) stop first bytes
    have reads : s.readTransfer ⟨none, stop⟩ count = s.sendNothing stop :=
      readTransfer_unbegun (fun left e => nomatch ht.symm.trans e) stop count
    exact ⟨congrArg Host.Outcome.next ((writes _).trans (refused _)), congrArg Host.Outcome.next ((writes _).trans (refused _)),
      congrArg Host.Outcome.next (reads.trans silent)⟩
  · exact (takesAll_nil .begun s).stored_refused (takeByte_item_refused s high) ha ht rfl ht rest
  · exact (takesAll_item s low).stored ha ht rfl ht
  · exact (takesAll_item s (item_le_of_firstByteRefused refused)).stored_refused
      (takeByte_refused (byteRefused_of_firstByteRefused refused)) ha ht rfl ht rest
  · exact (takesAll_live_select s hsel).stored_refused (takeByte_refused rfl) ha ht rfl ht rest
  · exact ((takesAll_view_bank s hsel).append (takesAll_view_entry _ index)).stored_refused (takeByte_refused rfl) ha ht rfl ht
      rest
  · have selected := takesAll_edit_select (s := s) hsel
    have ranged := (selected.append (takesAll_edit_first a2 a1 a0)).append (takesAll_edit_last b2 b1 b0)
    refine ⟨fun hp => ?_, fun hp hr => ?_⟩
    · exact ranged.stored_refused (takeByte_refused (by simp [State.byteRefused, editByteRefused, hp])) ha ht rfl ht rest
    · exact (ranged.append (takesAll_edit_policy hp)).stored_refused
        (takeByte_refused (by simp [State.byteRefused, editByteRefused, hr])) ha ht rfl ht rest

/-! ## COMMAND (R171) -/

/-- R171: the item pointer is at COMMAND, which holds the code and the parameters given; what is due is as it was. -/
def State.commanding (s : State) (code : Byte) (a b : DWord) : State :=
  { s with mgmt := { s.mgmt with pointer := 0x0C, command := ⟨code, a, b, s.mgmt.command.due⟩ } }

/-- A write transfer to COMMAND whose command byte has been acknowledged. -/
def WriteTransfer.commandAt (off : Nat) : WriteTransfer := ⟨some 0x0C, off, [], false, true⟩

/-- R164: when the command byte is refused. -/
theorem commandByteRefused_iff (s : State) (code : Byte) :
    s.commandByteRefused code = true ↔ ¬s.controllerWorks ∨ (s.mgmt.status.status = .busy ∧ code ≠ 0x07) := by
  simp [State.commandByteRefused, ← working_iff]

section Command
variable {s : State} {code : Byte} {a b : DWord}

theorem takesAll_command_code (h : s.commandByteRefused code = false) :
    s.takesAll .begun [0x0C, code] (.commandAt 1) (s.commanding code 0 0) := by
  have accepted : (s.setPointer 0x0C).byteRefused 0x0C 0 code = false := h
  refine (takesAll_item s (b := 0x0C) (by decide)).append (takesAll_one ?_)
  exact if_neg (ne_true_of_eq_false accepted)

theorem takesAll_command_paramA (x3 x2 x1 x0 : Byte) :
    (s.commanding code a b).takesAll (.commandAt 1) [x3, x2, x1, x0] (.commandAt 5)
      (s.commanding code (x3 ++ x2 ++ x1 ++ x0) b) := by
  rw [← fromBytes_four]
  exact (takesAll_data rfl rfl (.inr (by decide))).append <| (takesAll_data rfl rfl (.inr (by decide))).append <|
    (takesAll_data rfl rfl (.inr (by decide))).append (takesAll_data rfl rfl (.inr (by decide)))

theorem takesAll_command_paramB (x3 x2 x1 x0 : Byte) :
    (s.commanding code a b).takesAll (.commandAt 5) [x3, x2, x1, x0] (.commandAt 9)
      (s.commanding code a (x3 ++ x2 ++ x1 ++ x0)) := by
  rw [← fromBytes_four]
  exact (takesAll_data rfl rfl (.inr (by decide))).append <| (takesAll_data rfl rfl (.inr (by decide))).append <|
    (takesAll_data rfl rfl (.inr (by decide))).append (takesAll_data rfl rfl (.inr (by decide)))

/-- R165, R171: the first three bytes of a parameter, and the bytes past the ninth. -/
theorem passesOver_command {off : Nat} (h : (0 < off ∧ off < 4) ∨ (4 < off ∧ off < 8) ∨ 9 ≤ off) : s.passesOver 0x0C off := by
  intro held b
  have cases : off = 1 ∨ off = 2 ∨ off = 3 ∨ off = 5 ∨ off = 6 ∨ off = 7 ∨ 9 ≤ off := by omega
  rcases cases with rfl | rfl | rfl | rfl | rfl | rfl | past
  · exact ⟨rfl, rfl⟩
  · exact ⟨rfl, rfl⟩
  · exact ⟨rfl, rfl⟩
  · exact ⟨rfl, rfl⟩
  · exact ⟨rfl, rfl⟩
  · exact ⟨rfl, rfl⟩
  · obtain ⟨k, rfl⟩ := Nat.exists_eq_add_of_le' past
    exact ⟨by simp [State.byteRefused], rfl⟩

/-- R171: at the end of a transfer whose command byte was acknowledged the command is due, the part not HALTED. -/
theorem State.takesAll.makes_due {target : BitVec 7} {bytes : List Byte} {w : WriteTransfer}
    (h : s.takesAll .begun bytes w (s.commanding code a b)) (hw : w.commanded = true) (ha : s.addressed target)
    (ht : s.mgmt.transfer = none) (hp : s.start.part ≠ .halted) :
    exec (.registerWrite ⟨some target, true⟩ bytes) s = .next { s with mgmt := { s.mgmt with
      pointer := 0x0C, command := ⟨code, a, b, some code⟩, acks := List.replicate (bytes.length + 1) true } } := by
  rw [h.written ha ht, hw, transferEnded_due (s := (s.commanding code a b).setAcks _) hp, ← ht]
  rfl

end Command

/-- Settles O45: each field stored with its last byte, then what passes over. -/
theorem registersAreWritten : Obligations.RegistersAreWritten := by
  intro s target ha ht written
  refine ⟨?_, fun sel hsel => (takesAll_live_select s hsel).stored ha ht rfl ht, fun sel index hsel => ?_, ?_⟩
  · intro sel a2 a1 a0 b2 b1 b0 p r tail rest hsel hp hr short i g0 g1 g2 g3 g4 stored gives
    have selected := takesAll_edit_select (s := s) hsel
    have first := selected.append (takesAll_edit_first a2 a1 a0)
    have last := first.append (takesAll_edit_last b2 b1 b0)
    have policy := last.append (takesAll_edit_policy hp)
    have action := policy.append (takesAll_edit_action hr)
    obtain ⟨_, cut1⟩ := takesAll_passing (s := s.editing i g0) (item := 0x06) (off := 1) tail (by decide)
      (fun k hk => passesOver_edit (by omega)) [] false
    obtain ⟨_, cut2⟩ := takesAll_passing (s := s.editing i g1) (item := 0x06) (off := 4) tail (by decide)
      (fun k hk => passesOver_edit (by omega)) [] false
    obtain ⟨_, past⟩ := takesAll_passing (s := s.editing i g4) (item := 0x06) (off := 9) rest (by decide)
      (fun k hk => passesOver_edit (by omega)) [] false
    exact ⟨(selected.append cut1).stored ha ht rfl ht, (first.append cut2).stored ha ht rfl ht, last.stored ha ht rfl ht,
      policy.stored ha ht rfl ht, (action.append past).stored ha ht rfl ht⟩
  · have bank := takesAll_view_bank s hsel
    exact ⟨bank.stored ha ht rfl ht, (bank.append (takesAll_view_entry _ index)).stored ha ht rfl ht⟩
  · intro code a3 a2 a1 a0 b3 b2 b1 b0 tail rest short gives
    refine ⟨fun ⟨works, free⟩ => ?_, fun refused => ?_⟩
    · have running : s.start.part ≠ .halted := fun hp => not_controllerWorks_of_halted hp works
      have accepted : s.commandByteRefused code = false := by
        refine Bool.eq_false_iff.mpr fun refused => ?_
        rcases (commandByteRefused_iff s code).mp refused with stopped | ⟨busy, other⟩
        · exact stopped works
        · exact free.elim (· busy) other
      have coded := takesAll_command_code accepted
      have paramA := coded.append (takesAll_command_paramA a3 a2 a1 a0)
      have paramB := paramA.append (takesAll_command_paramB b3 b2 b1 b0)
      obtain ⟨_, cutA⟩ := takesAll_passing (s := s.commanding code 0 0) (item := 0x0C) (off := 1) tail (by decide)
        (fun k hk => passesOver_command (by omega)) [] true
      obtain ⟨_, cutB⟩ := takesAll_passing (s := s.commanding code (a3 ++ a2 ++ a1 ++ a0) 0) (item := 0x0C) (off := 5) tail
        (by decide) (fun k hk => passesOver_command (by omega)) [] true
      obtain ⟨_, past⟩ := takesAll_passing (s := s.commanding code (a3 ++ a2 ++ a1 ++ a0) (b3 ++ b2 ++ b1 ++ b0)) (item := 0x0C)
        (off := 9) rest (by decide) (fun k hk => passesOver_command (by omega)) [] true
      exact ⟨(coded.append cutA).makes_due rfl ha ht running, (paramA.append cutB).makes_due rfl ha ht running,
        (paramB.append past).makes_due rfl ha ht running⟩
    · have refuses : (s.setPointer 0x0C).byteRefused 0x0C 0 code = true := (commandByteRefused_iff s code).mpr refused
      exact (takesAll_item s (b := 0x0C) (by decide)).stored_refused (takeByte_refused refuses) ha ht rfl ht rest

end Sys2Proof.Machine
end

section
/-! Write transfers to CONFIG (R29, R75, R162, R164, R165, R167): each field byte by byte, the expiry a new limit brings at once,
and O46. -/

namespace Sys2Proof.Machine

/-- R167: the item pointer is at CONFIG, and the configuration is the one given. -/
def State.configuring (s : State) (c : Configuration) : State :=
  { s with mgmt := { s.mgmt with pointer := 0x04, config := c } }

/-! ## Byte by byte (R164, R167) -/

section Fields
variable {s : State} {c : Configuration}

theorem configByteRefused_of_running (hp : s.start.part ≠ .halted) (off : Nat) (b : Byte) :
    s.configByteRefused off b = (off == 4 && (b == 0 || decide (64 < b.toNat))) := by
  simp [State.configByteRefused, hp]

/-- R164: outside HALTED a byte of CONFIG at an offset other than 4 is acknowledged. -/
theorem config_byte_accepted (hp : s.start.part ≠ .halted) {off : Nat} (ho : off ≠ 4) (b : Byte) :
    s.byteRefused 0x04 off b = false :=
  (configByteRefused_of_running hp off b).trans (by simp [ho])

theorem config_burst_accepted (hp : s.start.part ≠ .halted) {b : Byte} (h1 : 1 ≤ b.toNat) (h2 : b.toNat ≤ 64) :
    s.byteRefused 0x04 4 b = false := by
  have nonzero : b ≠ 0#8 := fun e => by simp [e] at h1
  exact (configByteRefused_of_running hp 4 b).trans (by simp [nonzero, h2])

theorem config_burst_refused (hp : s.start.part ≠ .halted) {b : Byte} (h : b = 0 ∨ 64 < b.toNat) :
    s.byteRefused 0x04 4 b = true :=
  (configByteRefused_of_running hp 4 b).trans (by simpa using h)

theorem config_byte_refused_halted (hp : s.start.part = .halted) (off : Nat) (b : Byte) : s.byteRefused 0x04 off b = true := by
  simp [State.byteRefused, State.configByteRefused, hp]

theorem takesAll_config_item (s : State) : s.takesAll .begun [0x04] (.fieldAt 0x04 0) (s.configuring s.mgmt.config) :=
  takesAll_item s (b := 0x04) (by decide)

/-- R165: the first byte of a limit is held. -/
theorem takesAll_config_high (hp : s.start.part ≠ .halted) {off : Nat} (ho : off = 0 ∨ off = 2) (x1 : Byte) :
    s.takesAll (.fieldAt 0x04 off) [x1] ⟨some 0x04, off + 1, [x1], false, false⟩ s :=
  takesAll_data (config_byte_accepted hp (by omega) x1) (by rcases ho with rfl | rfl <;> rfl) (.inl (by decide))

theorem takesAll_config_open (hp : s.start.part ≠ .halted) (o1 o0 : Byte) :
    (s.configuring c).takesAll (.fieldAt 0x04 0) [o1, o0] (.fieldAt 0x04 2)
      (s.configuring { c with openLimit := o1 ++ o0 }).openLimitActs := by
  rw [← fromBytes_two]
  exact (takesAll_config_high (s := s.configuring c) hp (.inl rfl) o1).append
    (takesAll_data (config_byte_accepted (s := s.configuring c) hp (by decide) o0) rfl (.inl (by decide)))

theorem takesAll_config_hold (hp : s.start.part ≠ .halted) (h1 h0 : Byte) :
    (s.configuring c).takesAll (.fieldAt 0x04 2) [h1, h0] (.fieldAt 0x04 4)
      (s.configuring { c with holdLimit := h1 ++ h0 }).holdLimitActs := by
  rw [← fromBytes_two]
  exact (takesAll_config_high (s := s.configuring c) hp (.inr rfl) h1).append
    (takesAll_data (config_byte_accepted (s := s.configuring c) hp (by decide) h0) rfl (.inl (by decide)))

theorem takesAll_config_burst (hp : s.start.part ≠ .halted) {b : Byte} (h1 : 1 ≤ b.toNat) (h2 : b.toNat ≤ 64) :
    (s.configuring c).takesAll (.fieldAt 0x04 4) [b] (.fieldAt 0x04 5) (s.configuring { c with burstLimit := b.toNat }) :=
  takesAll_data (config_burst_accepted (s := s.configuring c) hp h1 h2) rfl (.inl (by decide))

theorem takesAll_config_mask (hp : s.start.part ≠ .halted) (b : Byte) :
    (s.configuring c).takesAll (.fieldAt 0x04 5) [b] (.fieldAt 0x04 6) (s.configuring { c with alertMask := b.setWidth 4 }) := by
  rw [BitVec.setWidth_eq_extractLsb' (by decide)]
  exact takesAll_data (config_byte_accepted (s := s.configuring c) hp (by decide) b) rfl (.inl (by decide))

/-- R162: past the sixth byte. -/
theorem passesOver_config (hp : s.start.part ≠ .halted) {off : Nat} (h : 6 ≤ off) : s.passesOver 0x04 off := by
  intro held b
  obtain ⟨k, rfl⟩ := Nat.exists_eq_add_of_le' h
  exact ⟨config_byte_accepted hp (by omega) b, rfl⟩

end Fields

/-! ## A limit at or below the time elapsed (R29, R75) -/

section Limits
variable {s : State} {c : Configuration}

theorem openLimitActs_iff (s : State) :
    (s.openTimerArmed && decide (s.mgmt.config.openLimit.toNat ≤ s.txn.openTimer.millis)) = true ↔
      s.controllerWorks ∧ s.txn.openTimer.running = true ∧ s.mgmt.config.openLimit ≠ 0 ∧
        s.mgmt.config.openLimit.toNat ≤ s.txn.openTimer.millis ∧
        (s.txn.context = .slotWait ∨ ∃ b, s.txn.context = .opened b) := by
  rw [Bool.and_eq_true, openTimerArmed_iff, decide_eq_true_eq]
  tauto

theorem holdLimitActs_iff (s : State) :
    (s.holdTimerArmed && decide (s.mgmt.config.holdLimit.toNat ≤ s.host.holdTimer.micros)) = true ↔
      s.controllerWorks ∧ s.host.holdTimer.running = true ∧ s.mgmt.config.holdLimit ≠ 0 ∧
        s.mgmt.config.holdLimit.toNat ≤ s.host.holdTimer.micros := by
  rw [Bool.and_eq_true, holdTimerArmed_iff, decide_eq_true_eq]
  tauto

theorem configuring_voidedOpen (b : BankId) (r : VoidReason) :
    (s.configuring c).voidedOpen b r = (s.voidedOpen b r).configuring c := by cases b <;> rfl

theorem configuring_voidedWaiting (r : VoidReason) : (s.configuring c).voidedWaiting r = (s.voidedWaiting r).configuring c := rfl

theorem configuring_voidedHolding (r : VoidReason) : (s.configuring c).voidedHolding r = (s.voidedHolding r).configuring c := rfl

theorem configuring_slotEmptied : (s.configuring c).slotEmptied = s.slotEmptied.configuring c := rfl

/-- R175: an offer reads and changes the queue and the dropped count alone. -/
theorem offer_eq (m : ManagementPort) (r : FaultRecord) :
    ∃ queue dropped, ∀ m' : ManagementPort, m'.queue = m.queue → m'.dropped = m.dropped →
      m'.offer r = { m' with queue := queue, dropped := dropped } := by
  rcases Nat.lt_or_ge m.queue.length 16 with room | full
  · refine ⟨m.queue ++ [r], m.dropped, fun m' hq hd => ?_⟩
    rw [offer_room r (by rwa [hq]), ← hq, ← hd]
  · refine ⟨m.queue, min 255 (m.dropped + 1), fun m' hq hd => ?_⟩
    rw [offer_full r (by rwa [hq]), ← hq, ← hd]

theorem withRefused_eq (s : State) (cause : Reason) (a : Addr) (e : Option (Fin 8)) :
    ∃ queue dropped, ∀ m : ManagementPort, m.queue = s.mgmt.queue → m.dropped = s.mgmt.dropped →
      ({ s with mgmt := m } : State).withRefused cause a e =
        { s with mgmt := { m with queue := queue, dropped := dropped } } := by
  obtain ⟨queue, dropped, offers⟩ := offer_eq s.mgmt ⟨.accessRefused, some cause, some a, none, e, s.start.clock.millis⟩
  exact ⟨queue, dropped, fun m hq hd => congrArg (fun m => { s with mgmt := m }) (offers m hq hd)⟩

theorem configuring_withRefused (cause : Reason) (a : Addr) (e : Option (Fin 8)) :
    (s.configuring c).withRefused cause a e = (s.withRefused cause a e).configuring c := by
  obtain ⟨_, _, refuses⟩ := withRefused_eq s cause a e
  rw [show s.withRefused cause a e = _ from refuses s.mgmt rfl rfl]
  exact refuses (s.configuring c).mgmt rfl rfl

theorem withRefused_transfer (cause : Reason) (a : Addr) (e : Option (Fin 8)) :
    (s.withRefused cause a e).mgmt.transfer = s.mgmt.transfer := by
  obtain ⟨_, _, refuses⟩ := withRefused_eq s cause a e
  rw [show s.withRefused cause a e = _ from refuses s.mgmt rfl rfl]

end Limits

/-- Settles O46. -/
theorem configurationIsWritten : Obligations.ConfigurationIsWritten := by
  intro s target o1 o0 h1 h0 burst mask rest ha ht written ends setOpen setHold openDue holdDue
  -- a whole transfer to CONFIG, by what its bytes leave
  have stores {bytes : List Byte} {v : WriteTransfer} {c : Configuration} {t : State} {n : Nat}
      (h : (s.configuring s.mgmt.config).takesAll (.fieldAt 0x04 0) bytes v (t.configuring c)) (hi : t.mgmt.transfer = none)
      (hc : v.commanded = false) (hn : bytes.length + 2 = n) : written bytes = ends c n 0 t := by
    have acks : ([0x04] ++ bytes).length + 1 = n := by rw [← hn]; simp
    refine (((takesAll_config_item s).append h).stored ha ht hc hi).trans ?_
    simp only [ends, List.replicate_zero, List.append_nil, acks]
    rfl
  have opens : s.start.part ≠ .halted → (s.configuring s.mgmt.config).takesAll (.fieldAt 0x04 0) [o1, o0] (.fieldAt 0x04 2)
      (s.configuring setOpen).openLimitActs := fun hp => takesAll_config_open hp o1 o0
  have holds : s.start.part ≠ .halted → (s.configuring setOpen).takesAll (.fieldAt 0x04 2) [h1, h0] (.fieldAt 0x04 4)
      (s.configuring setHold).holdLimitActs := fun hp => takesAll_config_hold hp h1 h0
  have open_idle (h : ¬openDue) : (s.configuring setOpen).openLimitActs = s.configuring setOpen :=
    if_neg fun e => h ((openLimitActs_iff _).mp e)
  have hold_idle (h : ¬holdDue) : (s.configuring setHold).holdLimitActs = s.configuring setHold :=
    if_neg fun e => h ((holdLimitActs_iff _).mp e)
  have running (h : s.controllerWorks) : s.start.part ≠ .halted := fun hp => not_controllerWorks_of_halted hp h
  refine ⟨fun stop => rfl, fun hp => ?_, fun hp no_open => ?_, fun hp no_open no_hold => ?_,
    fun hp => ?_, fun due => ?_, fun no_open due h hs => ?_⟩
  · exact stores (takesAll_config_high (s := s.configuring _) hp (.inl rfl) o1) ht rfl rfl
  · have stored := opens hp
    rw [open_idle no_open] at stored
    exact ⟨stores stored ht rfl rfl,
      stores (stored.append (takesAll_config_high (s := s.configuring _) hp (.inr rfl) h1)) ht rfl rfl⟩
  · have stored := opens hp
    rw [open_idle no_open] at stored
    have held := stored.append (holds hp)
    rw [hold_idle no_hold] at held
    refine ⟨stores held ht rfl rfl, fun low high => ?_, fun outside => ?_⟩
    · have limited := held.append (takesAll_config_burst (c := setHold) hp low high)
      obtain ⟨_, past⟩ := takesAll_passing (s := s.configuring ⟨o1 ++ o0, h1 ++ h0, burst.toNat, mask.setWidth 4⟩) (item := 0x04)
        (off := 6) rest (by decide) (fun k _ => passesOver_config (s := s.configuring _) hp (by omega)) [] false
      exact ⟨stores limited ht rfl rfl, stores ((limited.append (takesAll_config_mask hp mask)).append past) ht rfl
        (by simp; omega)⟩
    · rw [Nat.add_comm 1 rest.length]
      exact ((takesAll_config_item s).append held).stored_refused
        (takeByte_refused (config_burst_refused (s := s.configuring setHold) hp outside)) ha ht rfl ht rest
  · cases rest with
    | nil => exact stores (takesAll_nil _ _) ht rfl rfl
    | cons b rest =>
      exact (takesAll_config_item s).stored_refused (takeByte_refused (config_byte_refused_halted hp 0 b)) ha ht rfl ht rest
  · have hp := running due.1
    have opened := opens hp
    rw [show (s.configuring setOpen).openLimitActs = (s.configuring setOpen).voidTxn .expired from
      if_pos ((openLimitActs_iff _).mpr due)] at opened
    refine ⟨fun b hc => ?_, fun hc => ⟨fun hs => ?_, fun h hs hb => ?_⟩⟩
    · rw [voidTxn_opened (s := s.configuring setOpen) hc, configuring_voidedOpen] at opened
      exact stores opened (by cases b <;> exact ht) rfl rfl
    · rw [voidTxn_waiting (s := s.configuring setOpen) hc hs, configuring_voidedWaiting] at opened
      exact stores opened ht rfl rfl
    · rw [voidTxn_holding (s := s.configuring setOpen) hc hs hb, configuring_voidedHolding] at opened
      exact stores opened ht rfl rfl
  · have hp := running due.1
    have held := opens hp
    rw [open_idle no_open] at held
    replace held := held.append (holds hp)
    rw [show (s.configuring setHold).holdLimitActs = (s.configuring setHold).expireHold from
      if_pos ((holdLimitActs_iff _).mpr due)] at held
    refine ⟨fun hb => ?_, fun hb hc => ?_⟩
    · rw [expireHold_holdCondition (s := s.configuring setHold) hs hb, configuring_slotEmptied, configuring_withRefused] at held
      exact stores held ((withRefused_transfer _ _ _).trans ht) rfl rfl
    · rw [expireHold_bank (s := s.configuring setHold) hs hb hc, configuring_slotEmptied, configuring_withRefused,
        configuring_voidedWaiting] at held
      exact stores held ((withRefused_transfer (s := s.slotEmptied) _ _ _).trans ht) rfl rfl

end Sys2Proof.Machine
end

section
/-! Read transfers (R162, R163, R176), transfers given in several commands, and the START or the STOP that ends one (R161, R171);
O47 and O48. -/

namespace Sys2Proof.Machine

/-! ## Reads (R163, R176) -/

/-- R163: a whole read transfer. -/
theorem exec_faultRead_whole {s : State} {target : BitVec 7} (ha : s.addressed target) (ht : s.mgmt.transfer = none) (count : Nat) :
    exec (.faultRead ⟨some target, true⟩ count) s = .next
      { s.valuesTaken with mgmt := { s.valuesTaken.mgmt with transfer := none, readData := readBytes s.selectedBytes count } } := by
  show Host.Outcome.next (s.readTransfer _ _) = _
  rw [readTransfer_addressed ha, endTransfer_idle ht]
  exact congrArg Host.Outcome.next (closeStretch_read_stop _ _)

theorem valuesTaken_other {s : State} (h : s.mgmt.pointer ≠ 0x08) : s.valuesTaken = s := if_neg h

/-- R176: a read of FAULT in HALTED removes nothing. -/
theorem valuesTaken_halted {s : State} (hp : s.start.part = .halted) : s.valuesTaken = s := by
  unfold State.valuesTaken State.dropOldest
  rw [if_pos hp, ite_self]

/-- R176: a read of FAULT outside HALTED removes the oldest record. -/
theorem valuesTaken_fault {s : State} (h : s.mgmt.pointer = 0x08) (hp : s.start.part ≠ .halted) :
    s.valuesTaken = { s with mgmt := { s.mgmt with queue := s.mgmt.queue.tail } } :=
  (if_pos h).trans (if_neg hp)

theorem faultBytes_empty {s : State} (h : s.mgmt.queue = []) : s.faultBytes = List.replicate 16 0 := by
  simp only [State.faultBytes, h]

/-- R176: the records held after the read of one. -/
theorem faultBytes_running {s : State} {r : FaultRecord} {rest : List FaultRecord} (h : s.mgmt.queue = r :: rest)
    (hp : s.start.part ≠ .halted) : s.faultBytes = r.bytes ++ [BitVec.ofNat 8 rest.length] := by
  simp [State.faultBytes, State.heldAfterRead, h, hp]

theorem faultBytes_halted {s : State} {r : FaultRecord} {rest : List FaultRecord} (h : s.mgmt.queue = r :: rest)
    (hp : s.start.part = .halted) : s.faultBytes = r.bytes ++ [BitVec.ofNat 8 (rest.length + 1)] := by
  simp [State.faultBytes, State.heldAfterRead, h, hp]

theorem selectedBytes_fault {s : State} (h : s.mgmt.pointer = 0x08) : s.selectedBytes = s.faultBytes := by
  unfold State.selectedBytes
  rw [h]
  rfl

/-! ## A START ends the transfer before it (R161) -/

/-- The state the end of the transfer in progress leaves, as the statements write it. -/
theorem endTransfer_of_ended (s : State) (c : Bool) : (s.transferEnded c).endTransfer = s.transferEnded c :=
  endTransfer_idle rfl

/-- R161: a command that begins with a START acts as from the state in which the transfer before it has ended. -/
theorem exec_start_of_endTransfer_eq {s t : State} (h : s.endTransfer = t.endTransfer) (target : BitVec 7) (stop : Bool)
    (bytes : List Byte) (count : Nat) :
    exec (.registerWrite ⟨some target, stop⟩ bytes) s = exec (.registerWrite ⟨some target, stop⟩ bytes) t ∧
    exec (.configWrite ⟨some target, stop⟩ bytes) s = exec (.configWrite ⟨some target, stop⟩ bytes) t ∧
    exec (.faultRead ⟨some target, stop⟩ count) s = exec (.faultRead ⟨some target, stop⟩ count) t := by
  simp only [exec, execRegisterWrite, execConfigWrite, execFaultRead, State.writeTransfer, State.readTransfer, h, and_self]

/-- Settles O47. -/
theorem readReturnsTheSelectedItem : Obligations.ReadReturnsTheSelectedItem := by
  intro s target count ha ht read gives
  -- what a read gives, by the bytes selected and the queue left
  have reads {bytes : List Byte} {queue : List FaultRecord} (selected : s.selectedBytes = bytes)
      (taken : s.valuesTaken = { s with mgmt := { s.mgmt with queue := queue } }) : gives bytes queue := by
    refine (exec_faultRead_whole ha ht count).trans ?_
    rw [taken, selected, ← ht]
    rfl
  refine ⟨fun other => reads rfl (valuesTaken_other other),
    fun fault => ⟨fun r rest hq hp => ?_, fun r rest hq hp => ?_, fun hq => ?_⟩, fun item low => ?_⟩
  · refine reads ((selectedBytes_fault fault).trans (faultBytes_running hq hp)) ?_
    rw [valuesTaken_fault fault hp, hq]
    rfl
  · refine reads ((selectedBytes_fault fault).trans (faultBytes_halted hq hp)) ?_
    rw [valuesTaken_halted hp, ← hq]
  · refine reads ((selectedBytes_fault fault).trans (faultBytes_empty hq)) ?_
    by_cases hp : s.start.part = .halted
    · rw [valuesTaken_halted hp, ← hq]
    · rw [valuesTaken_fault fault hp, hq]
      rfl
  · let w : WriteTransfer := ⟨some item.toNat, 0, [], false, false⟩
    let t : State := ((s.setPointer item).setAcks [true, true]).setTransfer (some (.write w))
    have opened : exec (.registerWrite ⟨some target, false⟩ [item]) s = .next t := by
      show Host.Outcome.next (s.writeTransfer _ _ _) = _
      rw [writeTransfer_addressed ha, endTransfer_idle ht]
      have item_taken := takesAll_item s low
      unfold State.takesAll at item_taken
      simp only [State.goOnWriting, List.nil_append, item_taken]
      rfl
    have ended : t.endTransfer = { s with mgmt := { s.mgmt with pointer := item, acks := [true, true] } } := by
      rw [endTransfer_write (w := w) rfl]
      exact transferEnded_idle (s := (s.setPointer item).setAcks [true, true]) ht
    have idle : (s.setPointer item |>.setAcks [true, true]).endTransfer = (s.setPointer item).setAcks [true, true] :=
      endTransfer_idle ht
    obtain ⟨-, -, same_read⟩ := exec_start_of_endTransfer_eq (ended.trans idle.symm) target true [] count
    exact ⟨t, opened, same_read⟩

/-! ## The bytes of one transfer in two commands (R161 to R163, log entry 14) -/

/-- The port's record of its acknowledge bits and the transfer in progress, which no byte of a write transfer reads. -/
def State.answering (s : State) (acks : List Bool) (x : Option Transfer) : State :=
  { s with mgmt := { s.mgmt with acks := acks, transfer := x } }

section Answering
variable (s : State) (acks : List Bool) (x : Option Transfer)

theorem voidTxn_answering (r : VoidReason) : (s.answering acks x).voidTxn r = (s.voidTxn r).answering acks x := by
  cases hc : s.txn.context with
  | opened b =>
    rw [voidTxn_opened hc, voidTxn_opened (s := s.answering acks x) hc]
    cases b <;> rfl
  | slotWait =>
    by_cases held : ∃ h, s.host.slot = some h ∧ h.awaits = .bank
    · obtain ⟨h, hs, hw⟩ := held
      rw [voidTxn_holding hc hs hw, voidTxn_holding (s := s.answering acks x) hc hs hw]
      rfl
    · have free : ∀ h, s.host.slot = some h → h.awaits ≠ .bank := fun h hs hw => held ⟨h, hs, hw⟩
      rw [voidTxn_waiting hc free, voidTxn_waiting (s := s.answering acks x) hc free]
      rfl
  | idle => rw [voidTxn_ignored (.inl hc), voidTxn_ignored (s := s.answering acks x) (.inl hc)]
  | voided q => rw [voidTxn_ignored (.inr ⟨q, hc⟩), voidTxn_ignored (s := s.answering acks x) (.inr ⟨q, hc⟩)]

theorem withRefused_answering (c : Reason) (a : Addr) (e : Option (Fin 8)) :
    (s.answering acks x).withRefused c a e = (s.withRefused c a e).answering acks x := by
  obtain ⟨_, _, refuses⟩ := withRefused_eq s c a e
  rw [show s.withRefused c a e = _ from refuses s.mgmt rfl rfl]
  exact refuses (s.answering acks x).mgmt rfl rfl

theorem expireHold_answering : (s.answering acks x).expireHold = s.expireHold.answering acks x := by
  have slot : (s.answering acks x).host.slot = s.host.slot := rfl
  have refused (h : HeldWrite) : (s.answering acks x).clearSlot.offerRefused .holdExpired h.addr h.entry =
      (s.clearSlot.offerRefused .holdExpired h.addr h.entry).answering acks x :=
    withRefused_answering s.clearSlot acks x _ _ _
  cases hs : s.host.slot with
  | none => simp only [State.expireHold, slot, hs]
  | some h => cases hw : h.awaits <;> simp only [State.expireHold, slot, hs, hw, refused, voidTxn_answering]

theorem openLimitActs_answering : (s.answering acks x).openLimitActs = s.openLimitActs.answering acks x := by
  have due := voidTxn_answering s acks x .expired
  unfold State.openLimitActs
  rw [apply_ite (State.answering · acks x), ← due]
  rfl

theorem holdLimitActs_answering : (s.answering acks x).holdLimitActs = s.holdLimitActs.answering acks x := by
  have due := expireHold_answering s acks x
  unfold State.holdLimitActs
  rw [apply_ite (State.answering · acks x), ← due]
  rfl

theorem configByte_answering (off : Nat) (held : List Byte) (b : Byte) :
    (s.answering acks x).configByte off held b =
      ((s.configByte off held b).1, (s.configByte off held b).2.answering acks x) := by
  unfold State.configByte
  split
  · rfl
  · exact congrArg (Prod.mk []) (openLimitActs_answering (s.setConfig _) acks x)
  · rfl
  · exact congrArg (Prod.mk []) (holdLimitActs_answering (s.setConfig _) acks x)
  all_goals rfl

theorem acceptByte_answering (item off : Nat) (held : List Byte) (b : Byte) :
    (s.answering acks x).acceptByte item off held b =
      ((s.acceptByte item off held b).1, (s.acceptByte item off held b).2.answering acks x) := by
  unfold State.acceptByte
  split
  · exact configByte_answering s acks x off held b
  · unfold State.editByte
    split <;> rfl
  · unfold State.liveByte
    split <;> rfl
  · unfold State.viewByte
    split <;> rfl
  · unfold State.commandByte
    split <;> rfl
  · rfl

theorem takeByte_answering (w : WriteTransfer) (b : Byte) :
    (s.answering acks x).takeByte w b =
      ((s.takeByte w b).1, (s.takeByte w b).2.1, (s.takeByte w b).2.2.answering acks x) := by
  have refused (item off : Nat) : (s.answering acks x).byteRefused item off b = s.byteRefused item off b := by
    unfold State.byteRefused
    split <;> rfl
  unfold State.takeByte
  split
  · rfl
  · split
    · split <;> rfl
    · simp only [refused, acceptByte_answering]
      split <;> rfl

theorem takeBytes_answering (bytes : List Byte) (w : WriteTransfer) :
    takeBytes bytes w (s.answering acks x) =
      ((takeBytes bytes w s).1, (takeBytes bytes w s).2.1, (takeBytes bytes w s).2.2.answering acks x) := by
  induction bytes generalizing w s with
  | nil => rfl
  | cons b bytes ih => simp only [takeBytes, takeByte_answering, ih]

end Answering

/-- The bytes of a write transfer given in two commands do what they do in one. -/
theorem goOnWriting_append (s : State) (w : WriteTransfer) (acks : List Bool) (first later : List Byte) (stop : Bool) :
    let t := s.goOnWriting w acks first false
    let u := t.writeTransfer ⟨none, stop⟩ [] later
    s.goOnWriting w acks (first ++ later) stop = u.setAcks (t.mgmt.acks ++ u.mgmt.acks) := by
  intro t u
  rcases h1 : takeBytes first w s with ⟨acks1, v, r⟩
  rcases h2 : takeBytes later v r with ⟨acks2, v2, r2⟩
  have paused : t = r.answering (acks ++ acks1) (some (.write v)) := by
    simp only [t, State.goOnWriting, h1]
    rfl
  have resumed : u = (r2.setAcks acks2).closeStretch (.write v2) stop := by
    have goes_on : u = t.goOnWriting v [] later stop := by
      simp only [u, paused]
      rfl
    simp only [goes_on, paused, State.goOnWriting, takeBytes_answering, h2, List.nil_append]
    cases stop with
    | false => rfl
    | true =>
      rw [closeStretch_write_stop, closeStretch_write_stop]
      rfl
  have whole : s.goOnWriting w acks (first ++ later) stop =
      (r2.setAcks (acks ++ acks1 ++ acks2)).closeStretch (.write v2) stop := by
    simp only [State.goOnWriting, takeBytes_append, h1, h2, List.append_assoc]
  rw [whole, resumed, paused]
  cases stop with
  | false => rfl
  | true =>
    rw [closeStretch_write_stop, closeStretch_write_stop]
    rfl

/-- The bytes the port sent in the last read command are the ones given. -/
def State.sending (s : State) (bytes : List Byte) : State := { s with mgmt := { s.mgmt with readData := bytes } }

/-- The end of a transfer leaves the record of the acknowledge bits. -/
theorem endTransfer_setAcks (s : State) (acks : List Bool) : (s.setAcks acks).endTransfer = s.endTransfer.setAcks acks := by
  rw [endTransfer_eq, endTransfer_eq]
  rfl

/-- R161: bytes that no transfer takes, in two commands and in one. -/
theorem refuseStretch_append (s : State) (first later : Nat) (stop : Bool) :
    let t := s.refuseStretch first false
    let u := t.refuseStretch later stop
    s.refuseStretch (first + later) stop = u.setAcks (t.mgmt.acks ++ u.mgmt.acks) := by
  intro t u
  have record : s.setAcks (List.replicate (first + later) false) =
      (t.setAcks (List.replicate later false)).setAcks (List.replicate first false ++ List.replicate later false) := by
    rw [List.replicate_append_replicate]
    rfl
  cases stop with
  | false => exact record
  | true =>
    have ended : u = t.endTransfer.setAcks (List.replicate later false) := endTransfer_setAcks t _
    show (s.setAcks _).endTransfer = _
    rw [record, endTransfer_setAcks, endTransfer_setAcks, ended]
    rfl

theorem writeTransfer_append {s : State} {start : Option (BitVec 7)} (ha : ∀ target, start = some target → s.addressed target)
    (item first later : List Byte) (stop : Bool) :
    let t := s.writeTransfer ⟨start, false⟩ item first
    let u := t.writeTransfer ⟨none, stop⟩ item later
    s.writeTransfer ⟨start, stop⟩ item (first ++ later) = u.setAcks (t.mgmt.acks ++ u.mgmt.acks) := by
  cases start with
  | some target =>
    simp only [writeTransfer_addressed (ha target rfl), ← List.append_assoc]
    exact goOnWriting_append _ _ _ _ _ _
  | none =>
    by_cases begun : ∃ w, s.mgmt.transfer = some (.write w)
    · obtain ⟨w, hw⟩ := begun
      have goes_on (bytes : List Byte) (stop : Bool) : s.writeTransfer ⟨none, stop⟩ item bytes = s.goOnWriting w [] bytes stop := by
        simp only [State.writeTransfer, hw]
      rw [goes_on, goes_on]
      exact goOnWriting_append _ _ _ _ _ _
    · have unbegun : ∀ w, s.mgmt.transfer ≠ some (.write w) := fun w e => begun ⟨w, e⟩
      have refused : s.writeTransfer ⟨none, false⟩ item first = s.refuseStretch first.length false :=
        writeTransfer_unbegun unbegun _ _ _
      have resumed : (s.refuseStretch first.length false).writeTransfer ⟨none, stop⟩ item later =
          (s.refuseStretch first.length false).refuseStretch later.length stop :=
        writeTransfer_unbegun (s := s.refuseStretch first.length false) unbegun _ _ _
      simp only [refused, resumed, writeTransfer_unbegun unbegun, List.length_append]
      exact refuseStretch_append s first.length later.length stop

/-- R163: what is sent in two commands is what is sent in one. -/
theorem readBytes_append (bytes : List Byte) (first later : Nat) :
    readBytes bytes (first + later) = readBytes bytes first ++ readBytes (bytes.drop first) later := by
  unfold readBytes
  rcases Nat.le_total first bytes.length with inside | past
  · have none_yet : first - bytes.length = 0 := Nat.sub_eq_zero_of_le inside
    have left : first + later - bytes.length = later - (bytes.length - first) := by omega
    simp [none_yet, left, List.take_add]
  · have all_left : first + later - bytes.length = first - bytes.length + later := by omega
    simp [all_left, List.take_of_length_le, List.drop_of_length_le, past, Nat.le_add_right_of_le past,
      ← List.replicate_append_replicate]

theorem sendBytes_append (s : State) (left : List Byte) (first later : Nat) (stop : Bool) :
    let t := s.sendBytes left first false
    let u := t.readTransfer ⟨none, stop⟩ later
    s.sendBytes left (first + later) stop = u.sending (t.mgmt.readData ++ u.mgmt.readData) := by
  intro t u
  have resumed : u = t.sendBytes (left.drop first) later stop := rfl
  rw [resumed]
  unfold State.sendBytes
  rw [readBytes_append, ← List.drop_drop]
  cases stop with
  | false => rfl
  | true =>
    rw [closeStretch_read_stop, closeStretch_read_stop]
    rfl

theorem readTransfer_append {s : State} {start : Option (BitVec 7)} (ha : ∀ target, start = some target → s.addressed target)
    (first later : Nat) (stop : Bool) :
    let t := s.readTransfer ⟨start, false⟩ first
    let u := t.readTransfer ⟨none, stop⟩ later
    s.readTransfer ⟨start, stop⟩ (first + later) = u.sending (t.mgmt.readData ++ u.mgmt.readData) := by
  cases start with
  | some target =>
    simp only [readTransfer_addressed (ha target rfl)]
    exact sendBytes_append _ _ _ _ _
  | none =>
    by_cases begun : ∃ left, s.mgmt.transfer = some (.read left)
    · obtain ⟨left, hr⟩ := begun
      have goes_on (count : Nat) (stop : Bool) : s.readTransfer ⟨none, stop⟩ count = s.sendBytes left count stop := by
        simp only [State.readTransfer, hr]
      rw [goes_on, goes_on]
      exact sendBytes_append _ _ _ _ _
    · have unbegun : ∀ left, s.mgmt.transfer ≠ some (.read left) := fun left e => begun ⟨left, e⟩
      have silent : s.readTransfer ⟨none, false⟩ first = s.sending [] := readTransfer_unbegun unbegun _ _
      have resumed : (s.sending []).readTransfer ⟨none, stop⟩ later = (s.sending []).sendNothing stop :=
        readTransfer_unbegun unbegun _ _
      simp only [silent, resumed, readTransfer_unbegun unbegun]
      cases stop <;> rfl

/-- Settles O48. -/
theorem transferGoesOnAndEnds : Obligations.TransferGoesOnAndEnds := by
  refine ⟨?_, ?_, ?_⟩
  · intro s start stop ha
    refine ⟨fun write first later kind => ?_, fun first later =>
      ⟨_, _, rfl, rfl, congrArg Host.Outcome.next (readTransfer_append ha first later stop)⟩⟩
    rcases kind with rfl | rfl
    · exact ⟨_, _, rfl, rfl, congrArg Host.Outcome.next (writeTransfer_append ha [] first later stop)⟩
    · exact ⟨_, _, rfl, rfl, congrArg Host.Outcome.next (writeTransfer_append ha [0x04] first later stop)⟩
  · intro s target stop bytes count frame c hc
    have acts {ended : Bool} (h : s.endTransfer = s.transferEnded ended) : exec c s = exec c (s.transferEnded ended) := by
      obtain ⟨register, config, read⟩ :=
        exec_start_of_endTransfer_eq (h.trans (endTransfer_of_ended s ended).symm) target stop bytes count
      simp only [List.mem_cons, List.not_mem_nil, or_false] at hc
      rcases hc with rfl | rfl | rfl
      · exact register
      · exact config
      · exact read
    exact ⟨fun w hw => acts (endTransfer_write hw), fun left hr => acts (endTransfer_read hr)⟩
  · intro s
    refine ⟨fun w hw => ?_, fun left hr => ?_⟩
    · have stops : s.writeTransfer ⟨none, true⟩ [] [] = (s.setAcks []).closeStretch (.write w) true := by
        simp only [State.writeTransfer, hw]
        rfl
      exact congrArg Host.Outcome.next (stops.trans (closeStretch_write_stop _ _))
    · have stops : s.readTransfer ⟨none, true⟩ 0 = (s.sending []).closeStretch (.read left) true := by
        have sends : s.readTransfer ⟨none, true⟩ 0 = s.sendBytes left 0 true := by simp only [State.readTransfer, hr]
        simp [sends, State.sendBytes, readBytes, State.sending]
      exact congrArg Host.Outcome.next (stops.trans (closeStretch_read_stop _ _))

end Sys2Proof.Machine
end

section
/-! The takes of the port's own commands (R168, R171, R173, R175, R178) and the levels of the output lines (R2 to R4, R15, R37 to
R39, R131 to R133, R177); O53 and O23. -/

namespace Sys2Proof.Machine

/-! ## The takes (R171) -/

/-- R171, log entry 15: in HALTED the command that is due is dropped. -/
theorem takeDue_halted {s : State} {c : Byte} (hd : s.mgmt.command.due = some c) (hp : s.start.part = .halted)
    {named : Byte → Bool} (hn : named c = true) (effect : Byte → State → State) : s.takeDue named effect = s.taken := by
  simp only [State.takeDue, hd, hn, hp, if_true]
  rfl

/-- R171: the codes outside 01h to 07h. -/
theorem unknownCode_iff (b : Byte) : unknownCode b = true ↔ b = 0x00 ∨ 7 < b.toNat := by
  simp [unknownCode]

/-- Settles O53. -/
theorem portCommandsAreTaken : Obligations.PortCommandsAreTaken := by
  intro s code hd
  refine ⟨fun hw => ?_, fun hp => ?_⟩
  · have takes {named : Byte → Bool} (hn : named code = true) (effect : Byte → State → State) :
        Host.Outcome.next (φ := Fault) (ρ := Refusal) (s.takeDue named effect) = .next (effect code s.taken) :=
      congrArg _ (takeDue_taken hd hw hn effect)
    exact ⟨fun e => takes (by rw [e]; rfl) fun _ t => t.reloadTaken, fun e => takes (by rw [e]; rfl) fun _ t => t.clearFaultsTaken,
      fun e => takes (by rw [e]; rfl) fun _ t => t.clearCountersTaken,
      fun e => takes ((unknownCode_iff code).mpr e) fun c t => t.commandRefused c .badParameter⟩
  · have drops {named : Byte → Bool} (hn : named code = true) (effect : Byte → State → State) :
        Host.Outcome.next (φ := Fault) (ρ := Refusal) (s.takeDue named effect) = .next s.taken :=
      congrArg _ (takeDue_halted hd hp hn effect)
    exact ⟨fun e => drops (by rw [e]; rfl) _, fun e => drops (by rw [e]; rfl) _, fun e => drops (by rw [e]; rfl) _,
      fun e => drops (by rw [e]; rfl) _, fun e => drops (by rw [e]; rfl) _, fun e => drops (by rw [e]; rfl) _,
      fun straps e => drops (by rw [e]; rfl) _, fun e => drops ((unknownCode_iff code).mpr e) _⟩

/-! ## Output lines -/

section Lines
variable (s : State)

/-- R177. -/
theorem alertLow_iff :
    s.alertLow = true ↔ ∃ r ∈ s.mgmt.queue, s.mgmt.config.alertMask.getLsbD r.kind.maskBit = true :=
  List.any_eq_true

/-- R53: a bank is FREE. -/
theorem freeBank_isSome_iff : s.freeBank.isSome = true ↔ ∃ b, (s.bank b).state = .free := by
  unfold State.freeBank
  constructor
  · intro h
    split at h
    · exact ⟨.b0, by assumption⟩
    · split at h
      · exact ⟨.b1, by assumption⟩
      · cases h
  · rintro ⟨b, hb⟩
    cases b with
    | b0 => simp [show s.bank0.state = .free from hb]
    | b1 => split <;> simp [show s.bank1.state = .free from hb]

/-- R38. -/
theorem slotHigh_iff :
    s.slotHigh = true ↔ s.start.part = .run ∧ s.txn.context = .idle ∧ ∃ b, (s.bank b).state = .free := by
  rw [← freeBank_isSome_iff]
  simp only [State.slotHigh, Bool.and_eq_true, beq_iff_eq, and_assoc]

/-- R39. -/
theorem tbsyHigh_iff : s.tbsyHigh = true ↔ ∃ b, (s.bank b).state = .logWait ∨ (s.bank b).state = .logging := by
  simp only [State.tbsyHigh, BankState.loggingOrWaiting, Bool.or_eq_true, beq_iff_eq]
  constructor
  · rintro (h | h)
    · exact ⟨.b0, h⟩
    · exact ⟨.b1, h⟩
  · rintro ⟨b, hb⟩
    cases b with
    | b0 => exact .inl hb
    | b1 => exact .inr hb

/-- R15, R159. -/
theorem hrstLow_iff : s.hrstLow = true ↔ s.start.drivesHrst = true ∨ s.host.pulse ≠ none := by
  simp only [State.hrstLow, Bool.or_eq_true, Option.isSome_iff_ne_none]

/-- R2 to R4. -/
theorem hwaitLow_iff :
    s.hwaitLow = true ↔ s.start.drivesHrst = true ∨ s.host.access ≠ none ∨ s.host.slot ≠ none ∨
      (recognised s.pins.host ≠ none ∧ s.host.cycleTaken = false) := by
  simp only [State.hwaitLow, State.hostBusy, State.cycleWaiting, Bool.or_eq_true, Bool.and_eq_true, Bool.not_eq_true',
    Option.isSome_iff_ne_none, or_assoc]

/-- R131: the port at rest. -/
theorem memorySignals_idle {s : State} (h : s.port.inFlight = none) :
    s.memorySignals = ⟨s.port.lastAddr, false, false, false, false, false, none⟩ := by
  simp only [State.memorySignals, h]

/-- R132, R133: an access in flight. -/
theorem memorySignals_flying {s : State} {f : InFlight} (h : s.port.inFlight = some f) :
    s.memorySignals = ⟨f.access.addr, true, !f.access.write, f.access.write, f.access.lanes.upper, f.access.lanes.lower,
      if f.access.write then some f.access.data else none⟩ := by
  simp only [State.memorySignals, h]

end Lines

/-- Settles O23. -/
theorem outputLinesFollowTheState : Obligations.OutputLinesFollowTheState := by
  intro s maskBit
  have bits : FaultKind.maskBit = maskBit := funext fun k => by cases k <;> rfl
  have alert := alertLow_iff s
  rw [bits] at alert
  exact ⟨alert, slotHigh_iff s, tbsyHigh_iff s, rfl, hrstLow_iff s, hwaitLow_iff s, memorySignals_idle,
    fun who a l d => ⟨memorySignals_flying, memorySignals_flying⟩⟩

end Sys2Proof.Machine
end

section
/-! The bytes of the items (R163, R165, R166, R170): each item as a list of fields, most significant byte first; O49. -/

namespace Sys2Proof.Machine

/-! ## Fields of bytes (R165) -/

theorem bigEndian_one (v : Nat) : bigEndian 1 v = [BitVec.ofNat 8 v] := by simp [bigEndian]

theorem bigEndian_length (n v : Nat) : (bigEndian n v).length = n := by
  induction n with
  | zero => rfl
  | succ n ih => rw [bigEndian, List.length_cons, ih]

theorem foldl_bytes (bs : List Byte) (v : Nat) :
    bs.foldl (fun v b => v * 256 + b.toNat) v = v * 256 ^ bs.length + fromBytes bs := by
  induction bs generalizing v with
  | nil => simp [fromBytes]
  | cons c bs ih =>
    have first : fromBytes (c :: bs) = bs.foldl (fun v b => v * 256 + b.toNat) c.toNat := by simp [fromBytes]
    rw [first, List.foldl_cons, ih, ih c.toNat, List.length_cons, Nat.pow_succ]
    ring

theorem fromBytes_cons (b : Byte) (bs : List Byte) : fromBytes (b :: bs) = b.toNat * 256 ^ bs.length + fromBytes bs := by
  rw [← foldl_bytes bs b.toNat]
  simp [fromBytes]

/-- R165: a field reads as its value, modulo 256 to its width. -/
theorem fromBytes_bigEndian (n v : Nat) : fromBytes (bigEndian n v) = v % 256 ^ n := by
  induction n with
  | zero => simp [bigEndian, fromBytes, Nat.mod_one]
  | succ n ih =>
    rw [bigEndian, fromBytes_cons, ih, bigEndian_length, BitVec.toNat_ofNat, Nat.mod_pow_succ (b := 256), Nat.mul_comm,
      Nat.add_comm]

/-- Fields one after another, each a width and a value. -/
def layout (fields : List (Nat × Nat)) : List Byte := fields.flatMap fun f => bigEndian f.1 f.2

theorem layout_nil : layout [] = [] := rfl

theorem layout_cons (f : Nat × Nat) (fields : List (Nat × Nat)) : layout (f :: fields) = bigEndian f.1 f.2 ++ layout fields := rfl

theorem layout_append (xs ys : List (Nat × Nat)) : layout (xs ++ ys) = layout xs ++ layout ys := List.flatMap_append

theorem layout_length (fields : List (Nat × Nat)) : (layout fields).length = (fields.map (·.1)).sum := by
  induction fields with
  | nil => rfl
  | cons f fields ih => simp [layout_cons, bigEndian_length, ih]

/-- The fields with their offsets, from one on: offset, width, value. -/
def placed : Nat → List (Nat × Nat) → List (Nat × Nat × Nat)
  | _, [] => []
  | off, (width, value) :: fields => (off, width, value) :: placed (off + width) fields

/-- R165: each field of a layout reads as its value at its offset, whatever stands before and behind. -/
theorem field_of_layout {bytes before behind : List Byte} {fields : List (Nat × Nat)} {off : Nat}
    (h : bytes = before ++ layout fields ++ behind) (ho : before.length = off) :
    ∀ f ∈ placed off fields, fromBytes ((bytes.drop f.1).take f.2.1) = f.2.2 % 256 ^ f.2.1 := by
  induction fields generalizing before off with
  | nil => simp [placed]
  | cons c fields ih =>
    obtain ⟨width, value⟩ := c
    have bytes_eq : bytes = before ++ (bigEndian width value ++ (layout fields ++ behind)) := by
      rw [h, layout_cons]
      simp only [List.append_assoc]
    refine List.forall_mem_cons.mpr ⟨?_, ?_⟩
    · have here : (bytes.drop off).take width = bigEndian width value := by
        rw [bytes_eq, List.drop_left' ho, List.take_left' (bigEndian_length width value)]
      show fromBytes ((bytes.drop off).take width) = _
      rw [here, fromBytes_bigEndian]
    · refine ih (before := before ++ bigEndian width value) ?_ ?_
      · rw [bytes_eq]
        simp only [List.append_assoc]
      · rw [List.length_append, bigEndian_length, ho]

/-! ## The items (R166) -/

/-- The fields of GUARD_EDIT and GUARD_LIVE. -/
def guardFields (sel : Fin 8) (g : GuardEntry) : List (Nat × Nat) :=
  [(1, sel), (3, g.first.toNat), (3, g.last.toNat), (1, policyCode g.policy), (1, actionCode g.action)]

/-- The fields of a fault record. -/
def FaultRecord.fields (r : FaultRecord) : List (Nat × Nat) :=
  [(1, r.kind.code.toNat), (1, (reasonByte r.cause).toNat), (1, r.presence.toNat), (3, (r.addr.getD 0).toNat),
    (4, (r.sequence.getD 0).toNat), (1, r.entry.getD 0), (4, r.stamp.toNat)]

/-- R65: the fields of the entry that BANK_VIEW names. -/
def entryFields (e : Option Entry) : List (Nat × Nat) :=
  match e with
  | some x => [(1, 1), (3, x.addr.toNat), (2, x.data.toNat), (1, laneCode x.lanes), (1, (flagByte x.applied).toNat)]
  | none => [(8, 0)]

/-- The fields of a bank context. -/
def Bank.fields (k : Bank) : List (Nat × Nat) :=
  [(1, k.state.code.toNat), (4, (k.seq.getD 0).toNat), (2, k.entries.length), (2, k.appliedCount),
    (4, (k.image.map (·.start)).getD 0), (2, (k.image.map (·.size)).getD 0),
    (2, k.target.getD 0xFFFF)]

/-- R166: the fields of an item by its number, in the order of their offsets. -/
def State.itemFields (s : State) (item : Nat) : List (Nat × Nat) :=
  match item with
  | 0x00 => [(2, 0x4210), (1, 0x01)]
  | 0x01 => [(1, s.start.part.code.toNat), (1, s.txn.context.code.toNat), (1, s.bank0.state.code.toNat),
      (1, s.bank1.state.code.toNat), (1, (flagByte s.tbsyHigh).toNat), (1, (flagByte s.slotHigh).toNat),
      (1, (flagByte s.terrHigh).toNat)]
  | 0x02 =>
    let r := s.start.report
    [(1, r.cause.code.toNat), (1, r.resets), (1, (copyCode r.copyUsed).toNat), (1, r.copiesInvalid), (2, r.replayed),
      (1, (flagByte r.partialImage).toNat), (4, r.head), (4, r.nextSeq.toNat)]
  | 0x03 =>
    let o := s.txn.outcome
    [(1, o.result.code.toNat), (1, (reasonByte o.reason).toNat), (4, (o.sequence.getD 0).toNat), (2, o.entries.getD 0),
      (2, o.refused.getD 0)]
  | 0x04 =>
    let c := s.mgmt.config
    [(2, c.openLimit.toNat), (2, c.holdLimit.toNat), (1, c.burstLimit), (1, c.alertMask.toNat)]
  | 0x05 =>
    let i := s.anchor.image
    [(4, s.anchor.generation.toNat), (4, i.logBase), (4, i.logSize), (4, i.tail), (4, i.tailSeq.toNat), (4, s.log.head),
      (4, s.log.used), (4, s.txn.nextSeq.toNat)]
  | 0x06 => guardFields s.mgmt.editSel s.mgmt.edit[s.mgmt.editSel]
  | 0x07 => guardFields s.mgmt.liveSel s.host.guards[s.mgmt.liveSel]
  | 0x08 =>
    match s.mgmt.queue with
    | r :: _ => r.fields ++ [(1, s.heldAfterRead)]
    | [] => [(16, 0)]
  | 0x09 => [(1, s.mgmt.queue.length), (1, s.mgmt.dropped)]
  | 0x0A =>
    let k := s.bank s.mgmt.bankSel
    [(1, s.mgmt.bankSel.code.toNat), (1, s.mgmt.entrySel.toNat)] ++ entryFields k.entries[s.mgmt.entrySel.toNat]? ++ k.fields
  | 0x0B => [(4, s.mgmt.counters.accepted.toNat), (4, s.mgmt.counters.durable.toNat), (4, s.mgmt.counters.failed.toNat)]
  | 0x0C => [(1, s.mgmt.command.code.toNat), (4, s.mgmt.command.paramA.toNat), (4, s.mgmt.command.paramB.toNat)]
  | 0x0D => [(1, s.mgmt.status.status.code.toNat), (1, s.mgmt.status.code.toNat), (1, (reasonByte s.mgmt.status.reason).toNat)]
  | _ => []

theorem guardBytes_layout (t : GuardTable) (sel : Fin 8) : guardBytes t sel = layout (guardFields sel t[sel]) := by
  simp [guardBytes, guardFields, layout_cons, layout_nil, bigEndian_one, addrBytes, Policy.code, RefusalAction.code]

theorem FaultRecord.bytes_layout (r : FaultRecord) : r.bytes = layout r.fields := by
  cases entry : r.entry <;>
    simp [FaultRecord.bytes, FaultRecord.fields, layout_cons, layout_nil, bigEndian_one, addrBytes, dwordBytes, entry]

theorem entryBytes_layout (e : Option Entry) : entryBytes e = layout (entryFields e) := by
  cases e with
  | none => rfl
  | some x => simp [entryBytes, entryFields, layout_cons, layout_nil, bigEndian_one, addrBytes]

theorem Bank.contextBytes_layout (k : Bank) : k.contextBytes = layout k.fields := by
  cases image : k.image <;> simp [Bank.contextBytes, Bank.fields, layout_cons, layout_nil, bigEndian_one, dwordBytes, image]

/-- R166: an item's bytes are its fields, one after another. -/
theorem itemBytes_layout (s : State) (item : Nat) : s.itemBytes item = layout (s.itemFields item) := by
  match item with
  | 0x00 => rfl
  | 0x01 => simp [State.itemBytes, State.stateBytes, State.itemFields, layout_cons, layout_nil, bigEndian_one]
  | 0x02 =>
    simp [State.itemBytes, StartupReport.bytes, State.itemFields, layout_cons, layout_nil, bigEndian_one, dwordBytes]
  | 0x03 =>
    simp [State.itemBytes, OutcomeRecord.bytes, State.itemFields, layout_cons, layout_nil, bigEndian_one, dwordBytes]
  | 0x04 => simp [State.itemBytes, Configuration.bytes, State.itemFields, layout_cons, layout_nil, bigEndian_one]
  | 0x05 => simp [State.itemBytes, State.logInfoBytes, State.itemFields, layout_cons, layout_nil, dwordBytes]
  | 0x06 => exact guardBytes_layout _ _
  | 0x07 => exact guardBytes_layout _ _
  | 0x08 =>
    simp only [State.itemBytes, State.faultBytes, State.itemFields]
    cases s.mgmt.queue with
    | nil => rfl
    | cons r rest => simp only [FaultRecord.bytes_layout, layout_append, layout_cons, layout_nil, bigEndian_one, List.append_nil]
  | 0x09 => simp [State.itemBytes, State.faultStatusBytes, State.itemFields, layout_cons, layout_nil, bigEndian_one]
  | 0x0A =>
    simp [State.itemBytes, State.bankViewBytes, State.itemFields, entryBytes_layout, Bank.contextBytes_layout, layout_append,
      layout_cons, bigEndian_one]
  | 0x0B => simp [State.itemBytes, Counters.bytes, State.itemFields, layout_cons, layout_nil, dwordBytes]
  | 0x0C => simp [State.itemBytes, CommandRecord.bytes, State.itemFields, layout_cons, layout_nil, bigEndian_one, dwordBytes]
  | 0x0D => simp [State.itemBytes, StatusRecord.bytes, State.itemFields, layout_cons, layout_nil, bigEndian_one]
  | _ + 14 => rfl

/-- R163, R165: each field of an item reads as its value at its offset. -/
theorem field_of_item (s : State) (item : Nat) : ∀ f ∈ placed 0 (s.itemFields item),
    fromBytes (((s.itemBytes item).drop f.1).take f.2.1) = f.2.2 % 256 ^ f.2.1 :=
  field_of_layout (before := []) (behind := []) (by rw [itemBytes_layout, List.append_nil, List.nil_append]) rfl

/-! ## The values of the fields (R166) -/

theorem flagByte_toNat (b : Bool) : (flagByte b).toNat = if b then 1 else 0 := by cases b <;> rfl

theorem FaultRecord.presence_toNat (r : FaultRecord) :
    r.presence.toNat =
      (if r.addr.isSome then 1 else 0) + 2 * (if r.sequence.isSome then 1 else 0) + 4 * (if r.entry.isSome then 1 else 0) := by
  unfold FaultRecord.presence
  cases r.addr.isSome <;> cases r.sequence.isSome <;> cases r.entry.isSome <;> rfl

/-- R166: the lengths of the fourteen items. -/
theorem itemBytes_length (s : State) {i : Nat} (hi : i < 14) :
    (s.itemBytes i).length = [3, 7, 15, 10, 6, 32, 9, 9, 16, 2, 27, 12, 9, 3].getD i 0 := by
  rw [itemBytes_layout, layout_length]
  match i with
  | 0x08 =>
    unfold State.itemFields
    cases s.mgmt.queue <;> rfl
  | 0x0A =>
    simp only [State.itemFields]
    cases (s.bank s.mgmt.bankSel).entries[s.mgmt.entrySel.toNat]? <;> rfl
  | 0 | 1 | 2 | 3 | 4 | 5 | 6 | 7 | 9 | 11 | 12 | 13 => rfl
  | n + 14 => omega

/-- R65: the fields of BANK_VIEW before the entry's, the entry's own, and the bank context's. -/
theorem field_of_bankView (s : State) :
    let entry := entryFields (s.bank s.mgmt.bankSel).entries[s.mgmt.entrySel.toNat]?
    ∀ f ∈ placed 0 [(1, s.mgmt.bankSel.code.toNat), (1, s.mgmt.entrySel.toNat)] ++ placed 2 entry ++
        placed 10 (s.bank s.mgmt.bankSel).fields,
      fromBytes (((s.itemBytes 0x0A).drop f.1).take f.2.1) = f.2.2 % 256 ^ f.2.1 := by
  intro entry
  have whole : placed 0 (s.itemFields 0x0A) = placed 0 [(1, s.mgmt.bankSel.code.toNat), (1, s.mgmt.entrySel.toNat)] ++
      placed 2 entry ++ placed 10 (s.bank s.mgmt.bankSel).fields := by
    simp only [State.itemFields, entry]
    cases (s.bank s.mgmt.bankSel).entries[s.mgmt.entrySel.toNat]? <;> rfl
  rw [← whole]
  exact field_of_item s 0x0A

/-- Settles O49. -/
theorem itemsReadAsLaidOut : Obligations.ItemsReadAsLaidOut := by
  intro s field bit part context bankState cause result status kind reason reads guard report outcome image viewed
  have part_code (p : PartState) : part p = p.code.toNat := by cases p <;> rfl
  have context_code (c : Context) : context c = c.code.toNat := by cases c <;> rfl
  have bank_code (b : BankState) : bankState b = b.code.toNat := by cases b <;> rfl
  have cause_code (c : ResetCause) : cause c = c.code.toNat := by cases c <;> rfl
  have result_code (r : OutcomeResult) : result r = r.code.toNat := by cases r <;> rfl
  have status_code (c : CommandStatus) : status c = c.code.toNat := by cases c <;> rfl
  have kind_code (k : FaultKind) : kind k = k.code.toNat := by cases k <;> rfl
  have reason_code (r : Option Reason) : reason r = (reasonByte r).toNat := by
    cases r with
    | none => rfl
    | some x => cases x <;> rfl
  have flag (b : Bool) : bit b = (flagByte b).toNat := (flagByte_toNat b).symm
  have whole {item : Nat} {fields : List (Nat × Nat × Nat)} (e : fields = placed 0 (s.itemFields item)) : reads item fields :=
    e ▸ field_of_item s item
  have guards (item : Nat) (sel : Fin 8) (g : GuardEntry) (e : s.itemFields item = guardFields sel g) : guard item sel g := by
    obtain ⟨first, last, policy, action⟩ := g
    refine whole ?_
    rw [e]
    cases policy <;> cases action <;> rfl
  obtain ⟨before, bank_fields⟩ := List.forall_mem_append.mp (field_of_bankView s)
  obtain ⟨selects, entry_fields⟩ := List.forall_mem_append.mp before
  refine ⟨fun i hi => itemBytes_length s hi, whole rfl, whole ?_, whole ?_, whole ?_, whole rfl, whole rfl, guards 6 _ _ rfl,
    guards 7 _ _ rfl, fun r rest hq => whole ?_, fun hq => faultBytes_empty hq, whole rfl, ?_, ?_, ?_, whole rfl, whole rfl,
    whole ?_⟩
  · simp only [part_code, context_code, bank_code, flag]
    rfl
  · simp only [cause_code, flag, report, State.itemFields]
    cases s.start.report.copyUsed with
    | none => rfl
    | some c => cases c <;> rfl
  · simp only [result_code, reason_code]
    rfl
  · have held : (if s.start.part = .halted then rest.length + 1 else rest.length) = s.heldAfterRead := by
      simp [State.heldAfterRead, hq]
    have presence : bit r.addr.isSome + 2 * bit r.sequence.isSome + 4 * bit r.entry.isSome = r.presence.toNat :=
      r.presence_toNat.symm
    simp only [kind_code, reason_code, held, presence, State.itemFields, hq]
    rfl
  · have read {fields : List (Nat × Nat × Nat)}
        (e : fields = placed 0 [(1, s.mgmt.bankSel.code.toNat), (1, s.mgmt.entrySel.toNat)] ++ placed 10 viewed.fields) :
        reads 0x0A fields := e ▸ List.forall_mem_append.mpr ⟨selects, bank_fields⟩
    refine read ?_
    simp only [bank_code, Bank.fields]
    cases s.mgmt.bankSel <;> cases viewed.image <;> rfl
  · intro e he
    have lanes : 2 * bit e.lanes.upper + bit e.lanes.lower = laneCode e.lanes := by
      simp only [bit, laneCode]
      cases e.lanes.upper <;> cases e.lanes.lower <;> rfl
    rw [he] at entry_fields
    rw [lanes, flag]
    exact entry_fields
  · intro he
    rw [he] at entry_fields
    exact entry_fields
  · simp only [status_code, reason_code]
    rfl

end Sys2Proof.Machine
end

section
/-! The attached memory (R132, R133, R141; log entries 3 and 10): what a step can make of it, operation by operation, and O54. -/

namespace Sys2Proof.Machine

/-! ## What a step can make of the memory -/

/-- R132, R133, R141: the memory as it was, or with the one write in flight in it, whole or torn. -/
def State.memoryLeft (s : State) (m : Memory) : Prop :=
  m = s.mem ∨ ∃ f, s.port.inFlight = some f ∧ f.access.write = true ∧
    (m = writeLanes s.mem f.access.addr f.access.lanes f.access.data ∨ m = tornWrite s.mem f.access s.torn)

/-- Log entry 3: no write, whole or torn, takes the memory out of its canonical form. -/
theorem memoryLeft_wf {s : State} {m : Memory} (h : memoryWf s.mem = true) (left : s.memoryLeft m) : memoryWf m = true := by
  rcases left with rfl | ⟨f, _, _, rfl | rfl⟩
  · exact h
  · exact writeLanes_wf h _ _ _
  · exact tornWrite_wf h _ _

theorem flightOf_inFlight {s : State} {who : Claimant} {x : Access} (h : s.flightOf who = some x) :
    s.port.inFlight = some ⟨who, x⟩ := by
  unfold State.flightOf at h
  split at h
  · rename_i f hf
    split at h
    · rename_i hw
      cases h
      rw [hf, ← hw]
    · cases h
  · cases h

/-- R132, R133: the completion of an access writes its word, or, for a read, nothing. -/
theorem landed_memoryLeft {s : State} {who : Claimant} {x : Access} (h : s.flightOf who = some x) :
    s.memoryLeft (s.landed x).mem := by
  unfold State.landed
  dsimp only
  split
  · rename_i hw
    exact .inr ⟨_, flightOf_inFlight h, hw, .inl rfl⟩
  · exact .inl rfl

/-- R140, R141: a reset finds the write in flight ended, or tears it. -/
theorem memoryAtReset_memoryLeft (s : State) (cause : ResetCause) : s.memoryLeft (s.memoryAtReset cause) := by
  unfold State.memoryAtReset
  split
  · rename_i f hf
    split
    · exact .inl rfl
    · rename_i hw
      have write : f.access.write = true := by simpa using hw
      split
      · exact .inr ⟨f, hf, write, .inl rfl⟩
      · exact .inr ⟨f, hf, write, .inr rfl⟩
  · exact .inl rfl

/-! ## Voids and refusals (R11 to R16, R24) -/

@[simp] theorem refuseWaiting_mem (s : State) : s.refuseWaiting.mem = s.mem := by
  unfold State.refuseWaiting
  split <;> rfl

@[simp] theorem voidTxn_mem (s : State) (r : VoidReason) : (s.voidTxn r).mem = s.mem := by
  unfold State.voidTxn
  split <;> simp

@[simp] theorem refusalAction_mem (s : State) (x : RefusalAction) : (s.refusalAction x).mem = s.mem := by
  cases x with
  | drop => rfl
  | dropAndReset => exact voidTxn_mem _ _

@[simp] theorem refuse_mem (s : State) (c : Reason) (a : Addr) (k : Classified) : (s.refuse c a k).mem = s.mem :=
  refusalAction_mem _ _

@[simp] theorem refuseLocked_mem (s : State) (a : Addr) (k : Classified) : (s.refuseLocked a k).mem = s.mem := by
  simp [State.refuseLocked]

/-! ## Taking a cycle (R1 to R18, R66 to R68) -/

@[simp] theorem capture_mem (s : State) (b : BankId) (a : Addr) (d : Word) (l : Lanes) : (s.capture b a d l).mem = s.mem := by
  unfold State.capture
  split <;> simp

@[simp] theorem promoteIn_mem (s : State) (b : BankId) (a : Addr) : (s.promoteIn b a).mem = s.mem := by
  obtain ⟨k, _, e⟩ := promoteIn_spec s b a
  rw [e, State.setBank_mem]

@[simp] theorem passOrHold_mem (s : State) (c : HostCycle) (k : Classified) : (s.passOrHold c k).mem = s.mem := by
  unfold State.passOrHold
  split <;> simp

@[simp] theorem routePlain_mem (s : State) (c : HostCycle) (k : Classified) : (s.routePlain c k).mem = s.mem := by
  unfold State.routePlain
  split <;> simp

@[simp] theorem routeJournaled_mem (s : State) (c : HostCycle) (k : Classified) : (s.routeJournaled c k).mem = s.mem := by
  unfold State.routeJournaled
  split <;> simp

@[simp] theorem routeWrite_mem (s : State) (c : HostCycle) (k : Classified) : (s.routeWrite c k).mem = s.mem := by
  unfold State.routeWrite
  split <;> simp

@[simp] theorem takeWrite_mem (s : State) (c : HostCycle) : (s.takeWrite c).mem = s.mem := by
  unfold State.takeWrite
  split <;> simp

@[simp] theorem forward_mem (s : State) (c : HostCycle) : (s.forward c).mem = s.mem := by
  unfold State.forward
  dsimp only
  split <;> rfl

@[simp] theorem takeRead_mem (s : State) (c : HostCycle) : (s.takeRead c).mem = s.mem := by
  unfold State.takeRead
  split
  · rfl
  · split <;> simp

@[simp] theorem takeLaneless_mem (s : State) (c : HostCycle) : (s.takeLaneless c).mem = s.mem := by
  unfold State.takeLaneless
  split <;> rfl

@[simp] theorem takeCycle_mem (s : State) : s.takeCycle.mem = s.mem := by
  unfold State.takeCycle
  dsimp only
  split
  · rfl
  · split
    · simp
    · split <;> simp

@[simp] theorem takeWaiting_mem (s : State) : s.takeWaiting.mem = s.mem := by
  unfold State.takeWaiting
  split <;> simp

theorem presentCycle_mem (s : State) (x : HostLines) : (s.presentCycle x).mem = s.mem := by
  unfold State.presentCycle
  dsimp only
  split <;> simp

/-! ## A bank becomes FREE (R23, R71) -/

@[simp] theorem openOn_mem (s : State) (b : BankId) : (s.openOn b).mem = s.mem := State.setBank_mem s b _

@[simp] theorem captureHeld_mem (s : State) (b : BankId) : (s.captureHeld b).mem = s.mem := by
  unfold State.captureHeld
  split <;> simp

@[simp] theorem openWaiting_mem (s : State) : s.openWaiting.mem = s.mem := by
  unfold State.openWaiting
  split
  · split <;> simp
  · rfl

@[simp] theorem examineHold_mem (s : State) : s.examineHold.mem = s.mem := by
  unfold State.examineHold
  split
  · split <;> rfl
  · rfl

/-! ## TXN and ABT (R22, R25, R31 to R36) -/

@[simp] theorem riseContext_mem (s : State) : s.riseContext.mem = s.mem := by
  unfold State.riseContext
  split
  · split <;> simp
  all_goals rfl

@[simp] theorem pulseNotice_mem (s : State) : s.pulseNotice.mem = s.mem := by
  unfold State.pulseNotice
  split <;> simp

theorem rise_mem (s : State) : s.rise.mem = s.mem := by
  unfold State.rise
  dsimp only
  split <;> simp

@[simp] theorem accept_mem (s : State) (b : BankId) : (s.accept b).mem = s.mem := State.setBank_mem s b _

@[simp] theorem releaseOpen_mem (s : State) (b : BankId) : (s.releaseOpen b).mem = s.mem := by
  unfold State.releaseOpen
  dsimp only
  split_ifs <;> simp

@[simp] theorem releaseWaiting_mem (s : State) : s.releaseWaiting.mem = s.mem := by
  unfold State.releaseWaiting
  split <;> rfl

@[simp] theorem releaseTaken_mem (s : State) : s.releaseTaken.mem = s.mem := by
  unfold State.releaseTaken
  split <;> simp

theorem fall_mem (s : State) : s.fall.mem = s.mem := by
  unfold State.fall
  dsimp only
  split <;> simp

theorem abort_mem (s : State) : s.abort.mem = s.mem := by
  unfold State.abort
  split <;> simp

/-! ## The timebase (R15, R28 to R30, R75, R76) -/

@[simp] theorem advance_mem (s : State) (n : Nat) : (s.advance n).mem = s.mem := by
  unfold State.advance
  split <;> rfl

@[simp] theorem expireHold_mem (s : State) : s.expireHold.mem = s.mem := by
  unfold State.expireHold
  split
  · dsimp only
    split <;> simp
  · rfl

@[simp] theorem holdExpiry_mem (s : State) : s.holdExpiry.mem = s.mem := by
  unfold State.holdExpiry
  split <;> simp

@[simp] theorem openExpiry_mem (s : State) : s.openExpiry.mem = s.mem := by
  unfold State.openExpiry
  split <;> simp

@[simp] theorem pulseEnd_mem (s : State) : s.pulseEnd.mem = s.mem := by
  unfold State.pulseEnd
  split
  · split <;> simp
  · rfl

@[simp] theorem pulseDue_mem (s : State) : s.pulseDue.mem = s.mem := by
  unfold State.pulseDue
  split <;> simp

@[simp] theorem holdDue_mem (s : State) : s.holdDue.mem = s.mem := by
  unfold State.holdDue
  split <;> simp

@[simp] theorem openDue_mem (s : State) : s.openDue.mem = s.mem := by
  unfold State.openDue
  split <;> simp

@[simp] theorem tick_mem (s : State) : s.tick.mem = s.mem := by simp [State.tick]

theorem idleStep_mem (s : State) : s.idleStep.mem = s.mem := by
  unfold State.idleStep
  split <;> simp

/-! ## Claims and grants (R135, R136): a claim or a grant writes nothing yet -/

@[simp] theorem claimLog_mem (s : State) : s.claimLog.mem = s.mem := by
  unfold State.claimLog
  split
  · split <;> rfl
  · rfl

@[simp] theorem claimAnchor_mem (s : State) : s.claimAnchor.mem = s.mem := by
  unfold State.claimAnchor
  split
  · split <;> rfl
  · rfl

@[simp] theorem claimStartup_mem (s : State) : s.claimStartup.mem = s.mem := by
  unfold State.claimStartup
  split
  · split <;> rfl
  · rfl

theorem nextClaim_mem (s : State) (who : Claimant) : (s.nextClaim who).mem = s.mem := by
  unfold State.nextClaim
  split
  · cases who <;> simp
  · rfl

theorem execGrant_mem {s t : State} (e : execGrant s = .next t) : t.mem = s.mem := by
  unfold execGrant at e
  split at e
  · split at e
    · cases e
      rfl
    · cases e
  · cases e
    rfl

/-! ## The host port's completions, the log writer and the apply engine (R9, R68, R71, R90 to R94, R101 to R105) -/

@[simp] theorem finishHostAccess_mem (s : State) (w : Word) : (s.finishHostAccess w).mem = s.mem := by
  unfold State.finishHostAccess
  split
  · rfl
  · rfl
  · split <;> rfl

theorem hostCompletion_memoryLeft (s : State) : s.memoryLeft s.hostCompletion.mem := by
  unfold State.hostCompletion
  split
  · rename_i x hx
    rw [finishHostAccess_mem]
    exact landed_memoryLeft hx
  · exact .inl rfl

theorem logTake_mem (s : State) : s.logTake.mem = s.mem := by
  unfold State.logTake
  split
  · split
    · split
      · exact State.setBank_mem s _ _
      · rfl
    · rfl
  · rfl

@[simp] theorem imageWordDone_mem (s : State) (j : LogJob) : (s.imageWordDone j).mem = s.mem := by
  unfold State.imageWordDone
  split
  · exact State.setBank_mem s _ _
  · rfl

theorem imageCompletion_memoryLeft (s : State) : s.memoryLeft s.imageCompletion.mem := by
  unfold State.imageCompletion
  split
  · rename_i x hx
    have landed := landed_memoryLeft hx
    split
    · split
      · rwa [imageWordDone_mem]
      · exact landed
    · exact landed
  · exact .inl rfl

theorem promoteHeld_mem (s : State) (b : BankId) : (s.promoteHeld b).mem = s.mem := by
  unfold State.promoteHeld
  split <;> simp

theorem applyTake_mem (s : State) : s.applyTake.mem = s.mem := by
  unfold State.applyTake
  split
  · split
    · split
      · exact (promoteHeld_mem _ _).trans (State.setBank_mem s _ _)
      · rfl
    · rfl
  · rfl

theorem applyChoice_mem (s : State) : s.applyChoice.mem = s.mem := by
  unfold State.applyChoice
  repeat' split
  all_goals rfl

@[simp] theorem requestWrite_mem (s : State) : s.requestWrite.mem = s.mem := by
  unfold State.requestWrite
  split <;> rfl

@[simp] theorem retire_mem (s : State) (b : BankId) : (s.retire b).mem = s.mem :=
  (requestWrite_mem _).trans (State.setBank_mem s b _)

@[simp] theorem homeWriteDone_mem (s : State) (b : BankId) (i : Nat) : (s.homeWriteDone b i).mem = s.mem := by
  unfold State.homeWriteDone
  dsimp only
  split <;> simp

theorem homeCompletion_memoryLeft (s : State) : s.memoryLeft s.homeCompletion.mem := by
  unfold State.homeCompletion
  split
  · rename_i x hx
    have landed := landed_memoryLeft hx
    split
    · split
      · rwa [homeWriteDone_mem]
      · exact landed
    · exact landed
    · exact landed
  · exact .inl rfl

/-! ## The end of a start-up (R159) and the anchor writer (R120 to R130) -/

@[simp] theorem endStartup_mem (s : State) (p : PartState) : (s.endStartup p).mem = s.mem := by
  unfold State.endStartup
  split <;> simp

@[simp] theorem retireBank_mem (s : State) (b : BankId) : (s.retireBank b).mem = s.mem := by
  unfold State.retireBank
  split <;> simp

@[simp] theorem retireCovered_mem (s : State) (w : AnchorWrite) : (s.retireCovered w).mem = s.mem := by
  unfold State.retireCovered
  dsimp only
  split <;> split <;> simp

@[simp] theorem formatWriteDone_mem (s : State) : s.formatWriteDone.mem = s.mem := by
  unfold State.formatWriteDone
  split
  · split <;> rfl
  · rfl

@[simp] theorem carriedDone_mem (s : State) (w : AnchorWrite) : (s.carriedDone w).mem = s.mem := by
  unfold State.carriedDone
  split <;> simp

@[simp] theorem closingDone_mem (s : State) : s.closingDone.mem = s.mem := by
  unfold State.closingDone
  split <;> simp

@[simp] theorem completeWrite_mem (s : State) (w : AnchorWrite) : (s.completeWrite w).mem = s.mem := by
  simp [State.completeWrite]

@[simp] theorem anchorWordDone_mem (s : State) (w : AnchorWrite) : (s.anchorWordDone w).mem = s.mem := by
  unfold State.anchorWordDone
  split <;> simp

theorem anchorCompletion_memoryLeft (s : State) : s.memoryLeft s.anchorCompletion.mem := by
  unfold State.anchorCompletion
  split
  · rename_i x w hx _
    have landed := landed_memoryLeft hx
    split
    · rwa [anchorWordDone_mem]
    · exact landed
  · exact .inl rfl
  · exact .inl rfl

theorem pendingStart_mem (s : State) : s.pendingStart.mem = s.mem := by
  unfold State.pendingStart
  split <;> rfl

theorem clearCompletion_memoryLeft (s : State) : s.memoryLeft s.clearCompletion.mem := by
  unfold State.clearCompletion
  split
  · rename_i x j hx _
    have landed := landed_memoryLeft hx
    split
    · rwa [State.formatCleared_mem]
    · exact landed
  · exact .inl rfl
  · exact .inl rfl

theorem secondStart_mem (s : State) : s.secondStart.mem = s.mem := by
  unfold State.secondStart
  split
  · split <;> rfl
  · rfl

/-! ## Halts and resets (R140, R141, R144, R157) -/

theorem pfwFall_mem (s : State) : s.pfwFall.mem = s.mem := by
  unfold State.pfwFall
  dsimp only
  split <;> rfl

theorem pfwRise_memoryLeft (s : State) (x : Straps) : s.memoryLeft (s.pfwRise x).mem := by
  unfold State.pfwRise
  dsimp only
  split
  · exact memoryAtReset_memoryLeft s .powerResume
  · exact .inl rfl

/-! ## Start-up and recovery (R147 to R154) -/

@[simp] theorem endScan_mem (s : State) : s.endScan.mem = s.mem := by
  unfold State.endScan
  dsimp only
  split <;> simp

@[simp] theorem stopScan_mem (s : State) (d : Bool) : (s.stopScan d).mem = s.mem := by
  unfold State.stopScan
  split <;> simp

@[simp] theorem scanHere_mem (s : State) : s.scanHere.mem = s.mem := by
  unfold State.scanHere
  dsimp only
  split <;> simp

@[simp] theorem offerCopy_mem (s : State) (c : Copy) (f : Option Reason) : (s.offerCopy c f).mem = s.mem := by
  unfold State.offerCopy
  split <;> rfl

@[simp] theorem chooseAnchor_mem (s : State) (a b : List Word) : (s.chooseAnchor a b).mem = s.mem := by
  unfold State.chooseAnchor
  dsimp only
  split <;> simp

@[simp] theorem endAnchorReads_mem (s : State) (ws : List Word) : (s.endAnchorReads ws).mem = s.mem := by
  unfold State.endAnchorReads
  split <;> simp

@[simp] theorem anchorWordRead_mem (s : State) (ws : List Word) : (s.anchorWordRead ws).mem = s.mem := by
  unfold State.anchorWordRead
  split <;> simp

theorem anchorReadDone_memoryLeft (s : State) : s.memoryLeft s.anchorReadDone.mem := by
  unfold State.anchorReadDone
  split
  · rename_i x words hx _
    have landed := landed_memoryLeft hx
    split
    · rwa [anchorWordRead_mem]
    · exact landed
  · exact .inl rfl

@[simp] theorem scanWord_mem (s : State) (word count : Nat) (head w : Word) : (s.scanWord word count head w).mem = s.mem := by
  have taken : (s.takenInScan (imagePlace word count) w).mem = s.mem := rfl
  unfold State.scanWord
  dsimp only
  split <;> simp [taken]

theorem scanReadDone_memoryLeft (s : State) : s.memoryLeft s.scanReadDone.mem := by
  unfold State.scanReadDone
  split
  · rename_i x word count head hx _
    have landed := landed_memoryLeft hx
    split
    · rwa [scanWord_mem]
    · exact landed
  · exact .inl rfl

theorem replayReadDone_memoryLeft (s : State) : s.memoryLeft s.replayReadDone.mem := by
  unfold State.replayReadDone
  split
  · rename_i x count entry record hx _
    have landed := landed_memoryLeft hx
    split
    · split
      · exact landed
      · exact landed
    · exact .inl rfl
  · exact .inl rfl

@[simp] theorem replayedEntry_mem (s : State) (count entry : Nat) : (s.replayedEntry count entry).mem = s.mem := by
  unfold State.replayedEntry
  split <;> simp

theorem replayWriteDone_memoryLeft (s : State) : s.memoryLeft s.replayWriteDone.mem := by
  unfold State.replayWriteDone
  split
  · rename_i x count entry record hx _
    have landed := landed_memoryLeft hx
    split
    · exact .inl rfl
    · split
      · rwa [replayedEntry_mem]
      · exact landed
  · exact .inl rfl

/-! ## Transfers of the management port (R161 to R171, R176) -/

@[simp] theorem openLimitActs_mem (s : State) : s.openLimitActs.mem = s.mem := by
  unfold State.openLimitActs
  split <;> simp

@[simp] theorem holdLimitActs_mem (s : State) : s.holdLimitActs.mem = s.mem := by
  unfold State.holdLimitActs
  split <;> simp

@[simp] theorem configByte_mem (s : State) (o : Nat) (l : List Byte) (b : Byte) : (s.configByte o l b).2.mem = s.mem := by
  unfold State.configByte
  split <;> simp

@[simp] theorem editByte_mem (s : State) (o : Nat) (l : List Byte) (b : Byte) : (s.editByte o l b).2.mem = s.mem := by
  unfold State.editByte
  split <;> rfl

@[simp] theorem liveByte_mem (s : State) (o : Nat) (b : Byte) : (s.liveByte o b).2.mem = s.mem := by
  unfold State.liveByte
  split <;> rfl

@[simp] theorem viewByte_mem (s : State) (o : Nat) (b : Byte) : (s.viewByte o b).2.mem = s.mem := by
  unfold State.viewByte
  split <;> rfl

@[simp] theorem commandByte_mem (s : State) (o : Nat) (l : List Byte) (b : Byte) : (s.commandByte o l b).2.mem = s.mem := by
  unfold State.commandByte
  split <;> rfl

@[simp] theorem acceptByte_mem (s : State) (i o : Nat) (l : List Byte) (b : Byte) : (s.acceptByte i o l b).2.mem = s.mem := by
  unfold State.acceptByte
  split <;> simp

@[simp] theorem takeByte_mem (s : State) (w : WriteTransfer) (b : Byte) : (s.takeByte w b).2.2.mem = s.mem := by
  unfold State.takeByte
  split
  · rfl
  · split
    · split <;> rfl
    · split <;> simp

@[simp] theorem takeBytes_mem (bs : List Byte) : ∀ (w : WriteTransfer) (s : State), (takeBytes bs w s).2.2.mem = s.mem := by
  induction bs with
  | nil => exact fun _ _ => rfl
  | cons b rest ih => exact fun w s => (ih _ _).trans (takeByte_mem s w b)

@[simp] theorem endTransfer_mem (s : State) : s.endTransfer.mem = s.mem := by
  unfold State.endTransfer
  dsimp only
  split
  · split <;> rfl
  · rfl
  · rfl

@[simp] theorem closeStretch_mem (s : State) (t : Transfer) (stop : Bool) : (s.closeStretch t stop).mem = s.mem := by
  unfold State.closeStretch
  split <;> simp

@[simp] theorem goOnWriting_mem (s : State) (w : WriteTransfer) (acks : List Bool) (bs : List Byte) (stop : Bool) :
    (s.goOnWriting w acks bs stop).mem = s.mem :=
  (closeStretch_mem _ _ stop).trans (takeBytes_mem bs w s)

@[simp] theorem refuseStretch_mem (s : State) (n : Nat) (stop : Bool) : (s.refuseStretch n stop).mem = s.mem := by
  unfold State.refuseStretch
  dsimp only
  split <;> simp

theorem writeTransfer_mem (s : State) (frame : Framing) (first bs : List Byte) :
    (s.writeTransfer frame first bs).mem = s.mem := by
  unfold State.writeTransfer
  dsimp only
  split
  · split <;> simp
  · split <;> simp

@[simp] theorem valuesTaken_mem (s : State) : s.valuesTaken.mem = s.mem := by
  unfold State.valuesTaken State.dropOldest
  split
  · split <;> rfl
  · rfl

@[simp] theorem sendBytes_mem (s : State) (left : List Byte) (n : Nat) (stop : Bool) : (s.sendBytes left n stop).mem = s.mem :=
  closeStretch_mem _ _ stop

@[simp] theorem sendNothing_mem (s : State) (stop : Bool) : (s.sendNothing stop).mem = s.mem := by
  unfold State.sendNothing
  dsimp only
  split <;> simp

theorem readTransfer_mem (s : State) (frame : Framing) (n : Nat) : (s.readTransfer frame n).mem = s.mem := by
  unfold State.readTransfer
  dsimp only
  split
  · split <;> simp
  · split <;> simp

/-! ## The takes of the management commands (R125 to R127, R171 to R173) -/

/-- R171: the take of a command, whose effect alone can reach the memory. -/
theorem takeDue_memoryLeft {s : State} (named : Byte → Bool) {effect : Byte → State → State}
    (left : ∀ c, s.memoryLeft (effect c s.disarm).mem) : s.memoryLeft (s.takeDue named effect).mem := by
  unfold State.takeDue
  split
  · split
    · split
      · exact left _
      · exact .inl rfl
    · exact .inl rfl
  · exact .inl rfl

theorem abortTaken_mem (s : State) : s.abortTaken.mem = s.mem := by
  unfold State.abortTaken
  split <;> simp

theorem guardsTaken_mem (s : State) : s.guardsTaken.mem = s.mem := by
  unfold State.guardsTaken
  split
  · rfl
  · split
    · exact requestWrite_mem _
    · rfl

theorem formatTaken_mem (s : State) : s.formatTaken.mem = s.mem := by
  unfold State.formatTaken
  split
  · rfl
  · split <;> rfl

/-! ## Every command, and the step -/

/-- R132, R133, R141: only the completion of a write, and a reset that finds one in flight, reach the memory. -/
theorem exec_memoryLeft {s t : State} (c : Instr) (e : exec c s = .next t) : s.memoryLeft t.mem := by
  cases c with
  | hostAccessCompletion => cases e; exact hostCompletion_memoryLeft s
  | imageWordCompletion => cases e; exact imageCompletion_memoryLeft s
  | homeWriteCompletion => cases e; exact homeCompletion_memoryLeft s
  | anchorWordCompletion => cases e; exact anchorCompletion_memoryLeft s
  | formatClearCompletion => cases e; exact clearCompletion_memoryLeft s
  | anchorReadCompletion => cases e; exact anchorReadDone_memoryLeft s
  | scanReadCompletion => cases e; exact scanReadDone_memoryLeft s
  | replayReadCompletion => cases e; exact replayReadDone_memoryLeft s
  | replayWriteCompletion => cases e; exact replayWriteDone_memoryLeft s
  | powerOn pins => cases e; exact memoryAtReset_memoryLeft s .powerOn
  | resetPin straps => cases e; exact memoryAtReset_memoryLeft s .resetPin
  | powerResume straps => cases e; exact pfwRise_memoryLeft s straps
  | softReset straps => cases e; exact takeDue_memoryLeft _ fun _ => memoryAtReset_memoryLeft s.disarm .soft
  | abort => cases e; exact takeDue_memoryLeft _ fun _ => .inl (abortTaken_mem _)
  | applyGuards => cases e; exact takeDue_memoryLeft _ fun _ => .inl (guardsTaken_mem _)
  | format => cases e; exact takeDue_memoryLeft _ fun _ => .inl (formatTaken_mem _)
  | reloadGuardEdit => cases e; exact takeDue_memoryLeft _ fun _ => .inl rfl
  | clearFaults => cases e; exact takeDue_memoryLeft _ fun _ => .inl rfl
  | clearCounters => cases e; exact takeDue_memoryLeft _ fun _ => .inl rfl
  | unknownCommand => cases e; exact takeDue_memoryLeft _ fun _ => .inl rfl
  | grant => exact .inl (execGrant_mem e)
  | hostWrite a d l oe => cases e; exact .inl (presentCycle_mem s _)
  | hostRead a l => cases e; exact .inl (presentCycle_mem s _)
  | hostCycleEnd => cases e; exact .inl rfl
  | refusalPulseEnd => cases e; exact .inl (pulseEnd_mem s)
  | holdExpired => cases e; exact .inl (holdExpiry_mem s)
  | openTimerExpiry => cases e; exact .inl (openExpiry_mem s)
  | txnRise => cases e; exact .inl (rise_mem s)
  | release => cases e; exact .inl (fall_mem s)
  | abtRise => cases e; exact .inl (abort_mem s)
  | memoryClaim who => cases e; exact .inl (nextClaim_mem s who)
  | logWriterTake => cases e; exact .inl (logTake_mem s)
  | applyTake => cases e; exact .inl (applyTake_mem s)
  | applyChoice => cases e; exact .inl (applyChoice_mem s)
  | pendingWriteStart => cases e; exact .inl (pendingStart_mem s)
  | formatSecondWriteStart => cases e; exact .inl (secondStart_mem s)
  | rstRise => cases e; exact .inl rfl
  | pfwFall => cases e; exact .inl (pfwFall_mem s)
  | registerWrite frame bytes => cases e; exact .inl (writeTransfer_mem s frame [] bytes)
  | configWrite frame bytes => cases e; exact .inl (writeTransfer_mem s frame [0x04] bytes)
  | faultRead frame count => cases e; exact .inl (readTransfer_mem s frame count)

/-- A step is the command at the front of the queue, or an idle step, which leaves the memory alone. -/
theorem step_memoryLeft {s t : State} (e : step s = .next t) : s.memoryLeft t.mem := by
  cases hq : s.pending with
  | nil =>
    simp only [step, hq] at e
    cases e
    exact .inl (idleStep_mem s)
  | cons c rest =>
    rw [stepTakesTheFrontCommand s c rest hq] at e
    exact exec_memoryLeft (s := { s with pending := rest }) c e

/-- Settles O54: a step leaves the memory alone or puts one word write in it, and a word write keeps the canonical form. -/
theorem stepKeepsTheMemoryCanonical : Obligations.StepKeepsTheMemoryCanonical :=
  fun _ _ h e => memoryLeft_wf h (step_memoryLeft e)

end Sys2Proof.Machine
end
